-- ==== Sys2Proof/Word.lean ====
section
/-! DEFINITION. The word types of CHIP8-CORE (spec/00_scope.md R5, R7, R8: every value is an unsigned
integer of a fixed width, bit 0 is the least significant bit). -/

namespace Sys2Proof

/-- An 8-bit value: a V register, a timer, a byte of memory, an immediate NN (R5, R20, R29, R73). -/
abbrev Byte := BitVec 8

/-- A 16-bit value held by I, PC or a stack entry (R5 `I_WIDTH`, `PC_WIDTH`, R27). -/
abbrev Addr := BitVec 16

/-- A 16-bit instruction value `op` (R9, R70). -/
abbrev OpWord := BitVec 16

/-- A 4-bit field: a register number X or Y, a sprite height N, a key or digit number (R9, R73). -/
abbrev Nibble := BitVec 4

/-- A 12-bit address operand NNN (R73). -/
abbrev Addr12 := BitVec 12

end Sys2Proof
end

