-- ==== Sys2Proof/Syntax.lean ====
section
/-! DEFINITION. The 34 instructions of spec/30_encoding.md R74 (spec/opcode_table.json), one constructor
per row. Operands have exactly the widths of R73, so no ill-ranged operand can be written. -/

namespace Sys2Proof

/-- One constructor per row of the opcode table, in the table's order. -/
inductive Instr where
  | cls                                  -- 00E0  CLS
  | ret                                  -- 00EE  RET
  | jp (nnn : Addr12)                    -- 1NNN  JP nnn
  | call (nnn : Addr12)                  -- 2NNN  CALL nnn
  | seImm (x : Nibble) (nn : Byte)       -- 3XNN  SE Vx, nn
  | sneImm (x : Nibble) (nn : Byte)      -- 4XNN  SNE Vx, nn
  | seReg (x y : Nibble)                 -- 5XY0  SE Vx, Vy
  | ldImm (x : Nibble) (nn : Byte)       -- 6XNN  LD Vx, nn
  | addImm (x : Nibble) (nn : Byte)      -- 7XNN  ADD Vx, nn
  | ldReg (x y : Nibble)                 -- 8XY0  LD Vx, Vy
  | orReg (x y : Nibble)                 -- 8XY1  OR Vx, Vy
  | andReg (x y : Nibble)                -- 8XY2  AND Vx, Vy
  | xorReg (x y : Nibble)                -- 8XY3  XOR Vx, Vy
  | addReg (x y : Nibble)                -- 8XY4  ADD Vx, Vy
  | subReg (x y : Nibble)                -- 8XY5  SUB Vx, Vy
  | shr (x y : Nibble)                   -- 8XY6  SHR Vx, Vy
  | subn (x y : Nibble)                  -- 8XY7  SUBN Vx, Vy
  | shl (x y : Nibble)                   -- 8XYE  SHL Vx, Vy
  | sneReg (x y : Nibble)                -- 9XY0  SNE Vx, Vy
  | ldI (nnn : Addr12)                   -- ANNN  LD I, nnn
  | jpOff (nnn : Addr12)                 -- BNNN  JP V0, nnn
  | rnd (x : Nibble) (nn : Byte)         -- CXNN  RND Vx, nn
  | drw (x y n : Nibble)                 -- DXYN  DRW Vx, Vy, n
  | skp (x : Nibble)                     -- EX9E  SKP Vx
  | sknp (x : Nibble)                    -- EXA1  SKNP Vx
  | ldFromDt (x : Nibble)                -- FX07  LD Vx, DT
  | waitKey (x : Nibble)                 -- FX0A  LD Vx, K
  | setDt (x : Nibble)                   -- FX15  LD DT, Vx
  | setSt (x : Nibble)                   -- FX18  LD ST, Vx
  | addI (x : Nibble)                    -- FX1E  ADD I, Vx
  | ldFont (x : Nibble)                  -- FX29  LD F, Vx
  | storeBcd (x : Nibble)                -- FX33  LD B, Vx
  | storeRegs (x : Nibble)               -- FX55  LD [I], Vx
  | loadRegs (x : Nibble)                -- FX65  LD Vx, [I]
deriving DecidableEq, Repr

end Sys2Proof
end

