-- ==== Sys2Proof/WellFormed.lean ====
section
/-! DEFINITION. Well-formedness. A term of Instr is well-formed by its types (every operand has the width
R73 gives it and any value of that width is legal: spec/30_encoding.md R73, R79), so the check this hardware
needs is on the raw instruction value: the opcode map of R74, written as mask and match, and the illegal
values of R77. It is a transcription of the table of its own, apart from the two-level switch of
Sys2Proof/Decode.lean, so that the two can be proved to agree. -/

namespace Sys2Proof

/-- A row of R74: `op` selects it when `op & mask = fixed`. -/
structure EncodingRow where
  pattern : String
  fixed   : OpWord
  mask    : OpWord
deriving DecidableEq, Repr

/-- R74: "an `op` selects the row when `op & mask = match`". -/
def EncodingRow.selects (r : EncodingRow) (op : OpWord) : Bool := op &&& r.mask == r.fixed

/-- R74, families 0 to 4. -/
def rowsFlow : List EncodingRow :=
  [⟨"00E0", 0x00E0, 0xFFFF⟩, ⟨"00EE", 0x00EE, 0xFFFF⟩, ⟨"1NNN", 0x1000, 0xF000⟩, ⟨"2NNN", 0x2000, 0xF000⟩,
   ⟨"3XNN", 0x3000, 0xF000⟩, ⟨"4XNN", 0x4000, 0xF000⟩, ⟨"5XY0", 0x5000, 0xF00F⟩, ⟨"6XNN", 0x6000, 0xF000⟩,
   ⟨"7XNN", 0x7000, 0xF000⟩]

/-- R74, family 8. -/
def rowsAlu : List EncodingRow :=
  [⟨"8XY0", 0x8000, 0xF00F⟩, ⟨"8XY1", 0x8001, 0xF00F⟩, ⟨"8XY2", 0x8002, 0xF00F⟩, ⟨"8XY3", 0x8003, 0xF00F⟩,
   ⟨"8XY4", 0x8004, 0xF00F⟩, ⟨"8XY5", 0x8005, 0xF00F⟩, ⟨"8XY6", 0x8006, 0xF00F⟩, ⟨"8XY7", 0x8007, 0xF00F⟩,
   ⟨"8XYE", 0x800E, 0xF00F⟩]

/-- R74, families 9 to E. -/
def rowsIndex : List EncodingRow :=
  [⟨"9XY0", 0x9000, 0xF00F⟩, ⟨"ANNN", 0xA000, 0xF000⟩, ⟨"BNNN", 0xB000, 0xF000⟩, ⟨"CXNN", 0xC000, 0xF000⟩,
   ⟨"DXYN", 0xD000, 0xF000⟩, ⟨"EX9E", 0xE09E, 0xF0FF⟩, ⟨"EXA1", 0xE0A1, 0xF0FF⟩]

/-- R74, family F. -/
def rowsF : List EncodingRow :=
  [⟨"FX07", 0xF007, 0xF0FF⟩, ⟨"FX0A", 0xF00A, 0xF0FF⟩, ⟨"FX15", 0xF015, 0xF0FF⟩, ⟨"FX18", 0xF018, 0xF0FF⟩,
   ⟨"FX1E", 0xF01E, 0xF0FF⟩, ⟨"FX29", 0xF029, 0xF0FF⟩, ⟨"FX33", 0xF033, 0xF0FF⟩, ⟨"FX55", 0xF055, 0xF0FF⟩,
   ⟨"FX65", 0xF065, 0xF0FF⟩]

/-- The opcode map of R74, all 34 rows. -/
def encodingRows : List EncodingRow := rowsFlow ++ rowsAlu ++ rowsIndex ++ rowsF

/-- R77: a value that matches no row of R74 is illegal. -/
def legalWord (op : OpWord) : Bool := encodingRows.any fun r => r.selects op

/-- The row of R74 an instruction stands for. -/
def Instr.row : Instr → EncodingRow
  | .cls => ⟨"00E0", 0x00E0, 0xFFFF⟩
  | .ret => ⟨"00EE", 0x00EE, 0xFFFF⟩
  | .jp _ => ⟨"1NNN", 0x1000, 0xF000⟩
  | .call _ => ⟨"2NNN", 0x2000, 0xF000⟩
  | .seImm _ _ => ⟨"3XNN", 0x3000, 0xF000⟩
  | .sneImm _ _ => ⟨"4XNN", 0x4000, 0xF000⟩
  | .seReg _ _ => ⟨"5XY0", 0x5000, 0xF00F⟩
  | .ldImm _ _ => ⟨"6XNN", 0x6000, 0xF000⟩
  | .addImm _ _ => ⟨"7XNN", 0x7000, 0xF000⟩
  | .ldReg _ _ => ⟨"8XY0", 0x8000, 0xF00F⟩
  | .orReg _ _ => ⟨"8XY1", 0x8001, 0xF00F⟩
  | .andReg _ _ => ⟨"8XY2", 0x8002, 0xF00F⟩
  | .xorReg _ _ => ⟨"8XY3", 0x8003, 0xF00F⟩
  | .addReg _ _ => ⟨"8XY4", 0x8004, 0xF00F⟩
  | .subReg _ _ => ⟨"8XY5", 0x8005, 0xF00F⟩
  | .shr _ _ => ⟨"8XY6", 0x8006, 0xF00F⟩
  | .subn _ _ => ⟨"8XY7", 0x8007, 0xF00F⟩
  | .shl _ _ => ⟨"8XYE", 0x800E, 0xF00F⟩
  | .sneReg _ _ => ⟨"9XY0", 0x9000, 0xF00F⟩
  | .ldI _ => ⟨"ANNN", 0xA000, 0xF000⟩
  | .jpOff _ => ⟨"BNNN", 0xB000, 0xF000⟩
  | .rnd _ _ => ⟨"CXNN", 0xC000, 0xF000⟩
  | .drw _ _ _ => ⟨"DXYN", 0xD000, 0xF000⟩
  | .skp _ => ⟨"EX9E", 0xE09E, 0xF0FF⟩
  | .sknp _ => ⟨"EXA1", 0xE0A1, 0xF0FF⟩
  | .ldFromDt _ => ⟨"FX07", 0xF007, 0xF0FF⟩
  | .waitKey _ => ⟨"FX0A", 0xF00A, 0xF0FF⟩
  | .setDt _ => ⟨"FX15", 0xF015, 0xF0FF⟩
  | .setSt _ => ⟨"FX18", 0xF018, 0xF0FF⟩
  | .addI _ => ⟨"FX1E", 0xF01E, 0xF0FF⟩
  | .ldFont _ => ⟨"FX29", 0xF029, 0xF0FF⟩
  | .storeBcd _ => ⟨"FX33", 0xF033, 0xF0FF⟩
  | .storeRegs _ => ⟨"FX55", 0xF055, 0xF0FF⟩
  | .loadRegs _ => ⟨"FX65", 0xF065, 0xF0FF⟩

end Sys2Proof
end

