-- ==== Sys2Proof/Decode.lean ====
section
/-! DEFINITION. Decoding (spec/30_encoding.md R70 to R78) and the encoder. Decoding is a pure function of
`op` alone (R72), a two-level switch as R75 lists it; a value that selects no instruction is refused by
name (R77). -/

namespace Sys2Proof

/-! The operand fields of R9 and R73. -/

/-- `op[15:12]`, the family nibble. -/
def OpWord.family (op : OpWord) : Nibble := op.extractLsb' 12 4
/-- `X = op[11:8]`. -/
def OpWord.x (op : OpWord) : Nibble := op.extractLsb' 8 4
/-- `Y = op[7:4]`. -/
def OpWord.y (op : OpWord) : Nibble := op.extractLsb' 4 4
/-- `N = op[3:0]`. -/
def OpWord.n (op : OpWord) : Nibble := op.extractLsb' 0 4
/-- `NN = op[7:0]`. -/
def OpWord.nn (op : OpWord) : Byte := op.extractLsb' 0 8
/-- `NNN = op[11:0]`. -/
def OpWord.nnn (op : OpWord) : Addr12 := op.extractLsb' 0 12

/-- R75, family 0: selected on the whole of `op[11:0]`. -/
def decode0 (nnn : Addr12) : Option Instr :=
  if nnn = 0x0E0#12 then some .cls else if nnn = 0x0EE#12 then some .ret else none

/-- R75, family 8: selected on `op[3:0]`. -/
def decode8 (x y n : Nibble) : Option Instr :=
  match n with
  | 0x0#4 => some (.ldReg x y)
  | 0x1#4 => some (.orReg x y)
  | 0x2#4 => some (.andReg x y)
  | 0x3#4 => some (.xorReg x y)
  | 0x4#4 => some (.addReg x y)
  | 0x5#4 => some (.subReg x y)
  | 0x6#4 => some (.shr x y)
  | 0x7#4 => some (.subn x y)
  | 0xE#4 => some (.shl x y)
  | _ => none

/-- R75, family E: selected on `op[7:0]`. -/
def decodeE (x : Nibble) (nn : Byte) : Option Instr :=
  match nn with
  | 0x9E#8 => some (.skp x)
  | 0xA1#8 => some (.sknp x)
  | _ => none

/-- R75, family F: selected on `op[7:0]`. -/
def decodeF (x : Nibble) (nn : Byte) : Option Instr :=
  match nn with
  | 0x07#8 => some (.ldFromDt x)
  | 0x0A#8 => some (.waitKey x)
  | 0x15#8 => some (.setDt x)
  | 0x18#8 => some (.setSt x)
  | 0x1E#8 => some (.addI x)
  | 0x29#8 => some (.ldFont x)
  | 0x33#8 => some (.storeBcd x)
  | 0x55#8 => some (.storeRegs x)
  | 0x65#8 => some (.loadRegs x)
  | _ => none

/-- `Decode(op)` (R72, R75, R92): one of the 34 instructions, or none where the value is illegal (R77). -/
def decode (op : OpWord) : Option Instr :=
  match op.family with
  | 0x0#4 => decode0 op.nnn
  | 0x1#4 => some (.jp op.nnn)
  | 0x2#4 => some (.call op.nnn)
  | 0x3#4 => some (.seImm op.x op.nn)
  | 0x4#4 => some (.sneImm op.x op.nn)
  | 0x5#4 => if op.n = 0#4 then some (.seReg op.x op.y) else none
  | 0x6#4 => some (.ldImm op.x op.nn)
  | 0x7#4 => some (.addImm op.x op.nn)
  | 0x8#4 => decode8 op.x op.y op.n
  | 0x9#4 => if op.n = 0#4 then some (.sneReg op.x op.y) else none
  | 0xA#4 => some (.ldI op.nnn)
  | 0xB#4 => some (.jpOff op.nnn)
  | 0xC#4 => some (.rnd op.x op.nn)
  | 0xD#4 => some (.drw op.x op.y op.n)
  | 0xE#4 => decodeE op.x op.nn
  | 0xF#4 => decodeF op.x op.nn
  | _ => none   -- no value of a 4-bit field is left

/-- Why a byte sequence is not an instruction. -/
inductive DecodeError where
  | truncated                      -- fewer than the 2 bytes every instruction has (R70)
  | invalidOpcode (op : OpWord)    -- `op` matches no row of R74 (R77)
deriving DecidableEq, Repr

/-- What decoding a byte sequence gives: an instruction and the bytes after it, or a named rejection. -/
inductive Decoded where
  | instr (i : Instr) (rest : List Byte)
  | rejected (e : DecodeError)
deriving DecidableEq, Repr

/-- R52: `op` is assembled big-endian, the byte at the lower address is `op[15:8]`. -/
def assemble (hi lo : Byte) : OpWord := hi ++ lo

/-- Decoding of any bytes (R70, R72, R77). -/
def decodeBytes : List Byte → Decoded
  | hi :: lo :: rest =>
    match decode (assemble hi lo) with
    | some i => .instr i rest
    | none => .rejected (.invalidOpcode (assemble hi lo))
  | _ => .rejected .truncated

/-! The encoder, from the formats of R71 and the map of R74. -/

/-- Format `NNN` (R71). -/
def packNNN (family : Nibble) (nnn : Addr12) : OpWord := family ++ nnn
/-- Format `XNN` (R71); format `XSS` is the same with a fixed low byte. -/
def packXNN (family x : Nibble) (nn : Byte) : OpWord := family ++ x ++ nn
/-- Format `XYN` (R71); format `XYS` is the same with a fixed low nibble. -/
def packXYN (family x y n : Nibble) : OpWord := family ++ x ++ y ++ n

/-- The instruction value of an instruction (R71, R74). -/
def encode : Instr → OpWord
  | .cls => 0x00E0#16
  | .ret => 0x00EE#16
  | .jp nnn => packNNN 0x1 nnn
  | .call nnn => packNNN 0x2 nnn
  | .seImm x nn => packXNN 0x3 x nn
  | .sneImm x nn => packXNN 0x4 x nn
  | .seReg x y => packXYN 0x5 x y 0x0
  | .ldImm x nn => packXNN 0x6 x nn
  | .addImm x nn => packXNN 0x7 x nn
  | .ldReg x y => packXYN 0x8 x y 0x0
  | .orReg x y => packXYN 0x8 x y 0x1
  | .andReg x y => packXYN 0x8 x y 0x2
  | .xorReg x y => packXYN 0x8 x y 0x3
  | .addReg x y => packXYN 0x8 x y 0x4
  | .subReg x y => packXYN 0x8 x y 0x5
  | .shr x y => packXYN 0x8 x y 0x6
  | .subn x y => packXYN 0x8 x y 0x7
  | .shl x y => packXYN 0x8 x y 0xE
  | .sneReg x y => packXYN 0x9 x y 0x0
  | .ldI nnn => packNNN 0xA nnn
  | .jpOff nnn => packNNN 0xB nnn
  | .rnd x nn => packXNN 0xC x nn
  | .drw x y n => packXYN 0xD x y n
  | .skp x => packXNN 0xE x 0x9E
  | .sknp x => packXNN 0xE x 0xA1
  | .ldFromDt x => packXNN 0xF x 0x07
  | .waitKey x => packXNN 0xF x 0x0A
  | .setDt x => packXNN 0xF x 0x15
  | .setSt x => packXNN 0xF x 0x18
  | .addI x => packXNN 0xF x 0x1E
  | .ldFont x => packXNN 0xF x 0x29
  | .storeBcd x => packXNN 0xF x 0x33
  | .storeRegs x => packXNN 0xF x 0x55
  | .loadRegs x => packXNN 0xF x 0x65

/-- The two bytes of an instruction value as memory holds them, high byte first (R52, R71 "in byte terms"). -/
def layOut (op : OpWord) : List Byte := [op.extractLsb' 8 8, op.extractLsb' 0 8]

/-- The instruction value a table word of `nbits` bits stands for: the table numbers the 16 bits of `op`
(R8, R74), so the word IS `op`; bits at and above `nbits` are 0 (assumption log 14). -/
def tableWord (nbits w : Nat) : OpWord := BitVec.ofNat 16 (w % 2 ^ min nbits 16)

/-- The instruction the decoder reads from a table word, laid out in memory order. -/
def decodeTableWord (nbits w : Nat) : Option Instr :=
  if nbits ≤ 16 then
    match decodeBytes (layOut (tableWord nbits w)) with
    | .instr i _ => some i
    | .rejected _ => none
  else none

end Sys2Proof
end

