-- ==== Sys2Proof/Config.lean ====
section
/-! DEFINITION. What an implementation fixes (the policy constants of spec/00_scope.md R6, as types: the
decided values stand in Sys2Proof/Machine/Policy.lean) and the free values (the random source of
spec/10_state.md R34, left OPEN by spec/92_eei_decisions.md D25). None of this is state (R39). -/

namespace Sys2Proof.Config

/-- `SHIFT_POLICY` (R6, R128, R130): which register 8XY6 and 8XYE shift. -/
inductive ShiftPolicy where
  | vxInPlace   -- "operate on VX in place (modern/CHIP-48 behavior)"
  | vyIntoVx    -- "shift VY into VX (original COSMAC behavior)"
deriving DecidableEq, Repr

/-- `JUMP_OFFSET_POLICY` (R6, R113): which register BNNN adds. -/
inductive JumpOffsetPolicy where
  | v0   -- "PC = NNN + V0 (original)"
  | vx   -- "PC = NNN + VX where X is the top nibble of NNN (modern)"
deriving DecidableEq, Repr

/-- `LOADSTORE_I_POLICY` (R6, R144, R145): what FX55 and FX65 leave in I. -/
inductive LoadStoreIPolicy where
  | iUnchanged   -- I is not written
  | iIncrement   -- I is "incremented by X+1 afterward"
deriving DecidableEq, Repr

/-- `RngNext : RNG -> (byte, RNG)` (R34), OPEN. UNVERIFIED by design: it has no body, so nothing can be
proved of the byte or of the next generator state (assumption log 4). -/
opaque rngNext : Nat → Byte × Nat

/-- `RngSeed : seed -> RNG` (R34, R41), OPEN; the seed's type is unspecified and is a Nat here
(assumption log 4). -/
opaque rngSeed : Nat → Nat

end Sys2Proof.Config
end

