-- ==== Sys2Proof/Machine/State.lean ====
section
/-! DEFINITION. The whole architectural state of CHIP8-CORE (spec/10_state.md R20 to R41) as plain data, its
reset values (R40), the fault latch's names (R33, R170) and the reasons a step of the model can stop. -/

namespace Sys2Proof.Machine

/-- `RUN` (R31): the three run states. -/
inductive RunState where
  | running          -- RUNNING
  | waitingForKey    -- WAITING_FOR_KEY, entered by FX0A
  | halted           -- HALTED, entered by a fatal fault
deriving DecidableEq, Repr

/-- The six fatal faults of R33 and R170. The core TAKES them (R178): they are values of the latch `FAULT`
in a next state, never a stop of the model. `None` of R33 is the absence of a value. -/
inductive FatalFault where
  | programCounterOutOfBounds
  | invalidOpcode
  | stackOverflow
  | stackUnderflow
  | memoryOutOfBounds
  | writeProtected
deriving DecidableEq, Repr

/-- Why a step of the model can stop with a fault. -/
inductive Fault where
  /-- Raised by 00EE and 2NNN (through `pop` and `push`) when `SP` names a stack entry that does not exist, that is
  when `SP > 16`. R26: "only values 0 to 16 are reachable", and R27 gives 16 entries, so the spec gives the
  instruction no effect there. Safe: no run from reset reaches it (assumption log 8). -/
  | stackEntryAbsent
deriving DecidableEq, Repr

/-- Why a step of the model can be refused. -/
inductive Refusal where
  /-- Raised by `exec` for an instruction that has no meaning yet; no arm uses it in this model. Safe. -/
  | notModelled (mnemonic : String)
deriving DecidableEq, Repr

/-- The bytes of `MEM` that differ from their reset contents, addresses strictly rising
(the form is `Memory.wf` of Sys2Proof/Machine/Ops.lean). -/
abbrev Memory := List Host.Cell

/-- `FB` (R37): 32 rows of 64 one-bit pixels, row-major, true = on. -/
abbrev FrameBuffer := Vector (Vector Bool 64) 32

/-- Everything the spec gives the machine (spec/10_state.md). -/
structure State where
  /-- `V[0]` to `V[15]` (R20); `V[15]` is the flag register VF (R22). -/
  v : Vector Byte 16
  /-- The index register `I` (R25), 16 bits, not masked to 12. -/
  i : Addr
  /-- The program counter `PC` (R23). -/
  pc : Addr
  /-- The stack pointer `SP` (R26), the number of return addresses held. -/
  sp : BitVec 8
  /-- `STACK[0]` to `STACK[15]` (R27), a store of its own. -/
  stack : Vector Addr 16
  /-- The delay timer `DT` (R29). -/
  dt : Byte
  /-- The sound timer `ST` (R30). -/
  st : Byte
  /-- The run state `RUN` (R31). -/
  run : RunState
  /-- `WAITX` (R32): the X field of the FX0A that is waiting. -/
  waitx : Nibble
  /-- `KPREV[0]` to `KPREV[15]` (R32): the key states as last sampled. -/
  kprev : Vector Bool 16
  /-- The fatal-error latch `FAULT` (R33). -/
  fault : Option FatalFault
  /-- `RNG` (R34): the state of the random source, read and replaced through `Config.rngNext`. -/
  rng : Nat
  /-- `MEM` (R35, R51): the bytes that differ from their reset contents. -/
  mem : Memory
  /-- The framebuffer `FB` (R37). -/
  fb : FrameBuffer
  /-- The key latch `KEY[0]` to `KEY[15]` (R38), true = pressed. -/
  key : Vector Bool 16
deriving DecidableEq, Repr

/-- What one `Step` or one instruction of the model answers. -/
abbrev Result := Host.Outcome State Fault Refusal

/-- A framebuffer with every pixel off (R37, R150). -/
def FrameBuffer.clear : FrameBuffer := Vector.replicate 32 (Vector.replicate 64 false)

/-- The state after `Reset` and after power-on (R40, R200, R201). Memory lists nothing: an unlisted address reads as its
reset contents. DESIGN CHOICE: `rng` is 0, where R40 says "unspecified" (assumption log 5). -/
def State.reset : State where
  v := Vector.replicate 16 0#8
  i := 0#16
  pc := 0x0200#16
  sp := 0#8
  stack := Vector.replicate 16 0#16
  dt := 0#8
  st := 0#8
  run := .running
  waitx := 0#4
  kprev := Vector.replicate 16 false
  fault := none
  rng := 0
  mem := []
  fb := FrameBuffer.clear
  key := Vector.replicate 16 false

/-! One setter per field; Sys2Proof/Laws/State.lean says what each leaves alone. -/

def State.setV (s : State) (v : Vector Byte 16) : State := { s with v := v }
def State.setI (s : State) (i : Addr) : State := { s with i := i }
def State.setPc (s : State) (pc : Addr) : State := { s with pc := pc }
def State.setSp (s : State) (sp : BitVec 8) : State := { s with sp := sp }
def State.setStack (s : State) (stack : Vector Addr 16) : State := { s with stack := stack }
def State.setDt (s : State) (dt : Byte) : State := { s with dt := dt }
def State.setSt (s : State) (st : Byte) : State := { s with st := st }
def State.setRun (s : State) (run : RunState) : State := { s with run := run }
def State.setWaitx (s : State) (waitx : Nibble) : State := { s with waitx := waitx }
def State.setKprev (s : State) (kprev : Vector Bool 16) : State := { s with kprev := kprev }
def State.setFault (s : State) (fault : Option FatalFault) : State := { s with fault := fault }
def State.setRng (s : State) (rng : Nat) : State := { s with rng := rng }
def State.setMem (s : State) (mem : Memory) : State := { s with mem := mem }
def State.setFb (s : State) (fb : FrameBuffer) : State := { s with fb := fb }
def State.setKey (s : State) (key : Vector Bool 16) : State := { s with key := key }

end Sys2Proof.Machine
end

