-- ==== Sys2Proof/Machine/Policy.lean ====
section
/-! DEFINITION. The decided values of the policy constants (spec/00_scope.md R6, R100; spec/92_eei_decisions.md
D1 to D6) and the reset contents of MEM that follow from them (spec/10_state.md R35, R36). Every value here is the
spec's own decision, not DOC1's (assumption log 1, 2, 3). -/

namespace Sys2Proof.Machine

/-- `SHIFT_POLICY`, decided (D4). -/
def shiftPolicy : Config.ShiftPolicy := .vxInPlace

/-- `JUMP_OFFSET_POLICY`, decided (D5). -/
def jumpOffsetPolicy : Config.JumpOffsetPolicy := .v0

/-- `LOADSTORE_I_POLICY`, decided (D6). -/
def loadStoreIPolicy : Config.LoadStoreIPolicy := .iUnchanged

/-- `STACK_DEPTH`, decided (D1). -/
def stackDepth : Nat := 16

/-- `FONT_BASE`, decided (D2). -/
def fontBase : Nat := 0x050

/-- The glyphs of the digits 0 to 7 (R36). PRESUMED by the spec: conventional table, not in DOC1 (D3). -/
def fontLow : List Byte :=
  [0xF0, 0x90, 0x90, 0x90, 0xF0,
   0x20, 0x60, 0x20, 0x20, 0x70,
   0xF0, 0x10, 0xF0, 0x80, 0xF0,
   0xF0, 0x10, 0xF0, 0x10, 0xF0,
   0x90, 0x90, 0xF0, 0x10, 0x10,
   0xF0, 0x80, 0xF0, 0x10, 0xF0,
   0xF0, 0x80, 0xF0, 0x90, 0xF0,
   0xF0, 0x10, 0x20, 0x40, 0x40]

/-- The glyphs of the digits 8 to F (R36). PRESUMED by the spec: conventional table, not in DOC1 (D3). -/
def fontHigh : List Byte :=
  [0xF0, 0x90, 0xF0, 0x90, 0xF0,
   0xF0, 0x90, 0xF0, 0x10, 0xF0,
   0xF0, 0x90, 0xF0, 0x90, 0x90,
   0xE0, 0x90, 0xE0, 0x90, 0xE0,
   0xF0, 0x80, 0x80, 0x80, 0xF0,
   0xE0, 0x90, 0x90, 0x90, 0xE0,
   0xF0, 0x80, 0xF0, 0x80, 0xF0,
   0xF0, 0x80, 0xF0, 0x80, 0x80]

/-- `FONT_DATA` (R36, D3): 80 bytes, 5 per digit in digit order. -/
def fontData : List Byte := fontLow ++ fontHigh

/-- What an unlisted address of MEM reads as: its reset contents (R35, R36, R40), the font at `FONT_BASE` and
0 everywhere else. -/
def background (a : Nat) : Byte :=
  if fontBase ≤ a then fontData.getD (a - fontBase) 0 else 0

end Sys2Proof.Machine
end

