-- ==== Sys2Proof/Machine/Ops.lean ====
section
/-! DEFINITION. The named operations over memory, registers, stack, framebuffer and keys, taking a fault (spec/60_exceptions.md
R178), and the reset that returns from one (R179). The primitives are those of spec/00_scope.md R12 to R14. -/

namespace Sys2Proof.Machine

/-! ## Checked operations -/

/-- What a primitive that can fail answers (R13): its value, a fatal fault the core takes, or a stop of the
model where the spec gives no effect. -/
inductive Check (α : Type) where
  | ok (a : α)
  | raised (f : FatalFault)
  | stuck (f : Fault)
deriving DecidableEq, Repr

/-- Go on with the value, if there is one. -/
def Check.map {α β : Type} (g : α → β) : Check α → Check β
  | .ok a => .ok (g a)
  | .raised f => .raised f
  | .stuck f => .stuck f

/-! ## Taking a fault, and leaving it -/

/-- Fault entry (R178): `RUN <- HALTED`, `FAULT <- F`, and "every other piece of state keeps the value it had
before this Step"; PC stays at the faulting instruction and no handler is entered. The ONE operation that takes a fault. -/
def State.enterFault (s : State) (f : FatalFault) : State := (s.setRun .halted).setFault (some f)

/-- The end of a `Step` (R13): a failed check discards every assignment of the instruction, so the fault is taken
on the state `s` from before it. -/
def finish (s : State) : Check State → Result
  | .ok t => .next t
  | .raised f => .next (s.enterFault f)
  | .stuck f => .fault f

/-- Fault return (R179): there is no instruction for it; `Reset` (R200) is the only way out of HALTED. It does not
depend on the state before it, but for `RNG`, which is unspecified after it (R200): `rng` is whatever the caller gives. -/
def State.resetWith (rng : Nat) : State := State.reset.setRng rng

/-- The numeric code the `FAULT` output carries (R170). -/
def faultCode : Option FatalFault → Nat
  | none => 0
  | some .programCounterOutOfBounds => 1
  | some .invalidOpcode => 2
  | some .stackOverflow => 3
  | some .stackUnderflow => 4
  | some .memoryOutOfBounds => 5
  | some .writeProtected => 6

/-! ## Memory -/

/-- `MEM[a]` (R56). Every access of the machine is bound-checked first, so `a` is at most 0xFFF there
(assumption log 10). -/
def Memory.get : Memory → Nat → Byte
  | [], a => background a
  | (k, b) :: rest, a => if a = k then b else Memory.get rest a

/-- Drop every entry for one address. -/
def Memory.erase : Memory → Nat → Memory
  | [], _ => []
  | (k, b) :: rest, a => if a = k then Memory.erase rest a else (k, b) :: Memory.erase rest a

/-- Put an entry before the first larger address. -/
def Memory.insert : Memory → Nat → Byte → Memory
  | [], a, b => [(a, b)]
  | (k, c) :: rest, a, b => if a < k then (a, b) :: (k, c) :: rest else (k, c) :: Memory.insert rest a b

/-- `MEM[a] <- b`. A byte that returns to what an unlisted address reads as loses its entry, so equal memories are
equal lists. -/
def Memory.set (m : Memory) (a : Nat) (b : Byte) : Memory :=
  if b = background a then Memory.erase m a else Memory.insert (Memory.erase m a) a b

/-- `MEM[a + i] <- bytes[i]` in ascending order (R53, R58). -/
def Memory.setBytes : Memory → Nat → List Byte → Memory
  | m, _, [] => m
  | m, a, b :: rest => Memory.setBytes (Memory.set m a b) (a + 1) rest

/-- `MEM[a], …, MEM[a + n − 1]` (R56). -/
def Memory.getBytes (m : Memory) (a n : Nat) : List Byte := (List.range n).map fun j => Memory.get m (a + j)

/-- The canonical form from address `lo` on: addresses strictly rising and inside MEM, no entry equal to what an
unlisted address reads as. -/
def Memory.wfFrom : Nat → Memory → Bool
  | _, [] => true
  | lo, (a, b) :: rest => decide (lo ≤ a) && decide (a ≤ 0xFFF) && (b != background a) && Memory.wfFrom (a + 1) rest

/-- The canonical form of memory. -/
def Memory.wf (m : Memory) : Bool := Memory.wfFrom 0 m

/-- `MemRead(addr, n)` (R56, R57): the bound is checked over the whole range, without wrap, before any byte is read;
no check is made when `n = 0`. -/
def memRead (m : Memory) (addr n : Nat) : Check (List Byte) :=
  if 0 < n ∧ addr + n - 1 > 0xFFF then .raised .memoryOutOfBounds
  else .ok (Memory.getBytes m addr n)

/-- `MemWrite(addr, n, v)` (R57, R58): the bound first, then the write bar below 0x200, both before any byte is
written. -/
def memWrite (m : Memory) (addr : Nat) (bytes : List Byte) : Check Memory :=
  if 0 < bytes.length ∧ addr + bytes.length - 1 > 0xFFF then .raised .memoryOutOfBounds
  else if 0 < bytes.length ∧ addr < 0x200 then .raised .writeProtected
  else .ok (Memory.setBytes m addr bytes)

/-- `Fetch(PC)` (R52, R91): two bytes, big-endian, at any address up to 0xFFE, odd ones too (R54). -/
def fetch (s : State) : Check OpWord :=
  if s.pc.toNat + 1 > 0xFFF then .raised .programCounterOutOfBounds
  else .ok (assemble (Memory.get s.mem s.pc.toNat) (Memory.get s.mem (s.pc.toNat + 1)))

/-! ## V registers -/

/-- `V[x]` (R20). -/
def State.readV (s : State) (x : Nibble) : Byte := s.v[x.toNat]'x.isLt

/-- `V[x] <- b` (R20); no register is hardwired. -/
def State.writeV (s : State) (x : Nibble) (b : Byte) : State := s.setV (s.v.set x.toNat b x.isLt)

/-- The number of the flag register VF, `V[15]` (R22). -/
abbrev vf : Nibble := 0xF#4

/-- `V[j + k] <- bytes[k]` for each byte, in ascending order (R145). -/
def loadBlock : Vector Byte 16 → Nat → List Byte → Vector Byte 16
  | v, _, [] => v
  | v, j, b :: rest => loadBlock (v.setIfInBounds j b) (j + 1) rest

/-- `[V[0], …, V[x]]` (R144). -/
def blockOf (v : Vector Byte 16) (x : Nibble) : List Byte := v.toList.take (x.toNat + 1)

/-! ## Program counter -/

/-- `pcn`, the post-fetch value `PC + 2` (R91, R94). -/
def State.pcn (s : State) : Addr := s.pc + 2#16

/-- `PC <- pcn` (R94). -/
def State.advance (s : State) : State := s.setPc s.pcn

/-- `Skip(c)` (R14, R95): 2 more bytes are skipped when the condition holds, whatever they hold. -/
def State.skipIf (s : State) (c : Bool) : State := s.setPc (if c then s.pcn + 2#16 else s.pcn)

/-! ## Stack -/

/-- `Push(v)` (R27). An `SP` above the depth, which no run reaches (R26), names no entry (assumption log 8). -/
def push (s : State) (a : Addr) : Check State :=
  if s.sp.toNat = stackDepth then .raised .stackOverflow
  else if h : s.sp.toNat < 16 then .ok ((s.setStack (s.stack.set s.sp.toNat a h)).setSp (s.sp + 1#8))
  else .stuck .stackEntryAbsent

/-- `Pop()` (R28): the entry just uncovered, and the state with `SP` decremented; the slot keeps its value. -/
def pop (s : State) : Check (Addr × State) :=
  if s.sp.toNat = 0 then .raised .stackUnderflow
  else if h : s.sp.toNat - 1 < 16 then .ok (s.stack[s.sp.toNat - 1]'h, s.setSp (s.sp - 1#8))
  else .stuck .stackEntryAbsent

/-! ## Framebuffer -/

/-- `FB[y][x]` (R37, R153). -/
def FrameBuffer.get (fb : FrameBuffer) (x : Fin 64) (y : Fin 32) : Bool := (fb[y.val]'y.isLt)[x.val]'x.isLt

/-- `FB[y][x] <- p` (R37). -/
def FrameBuffer.set (fb : FrameBuffer) (x : Fin 64) (y : Fin 32) (p : Bool) : FrameBuffer :=
  Vector.set fb y.val (Vector.set (fb[y.val]'y.isLt) x.val p x.isLt) y.isLt

/-- A framebuffer being drawn on, with the collision seen so far: `FB` and `coll` of R151. -/
abbrev Canvas := FrameBuffer × Bool

/-- One sprite bit at one pixel (R151): a set bit inverts the pixel and collides with one that was on; a clear bit
leaves it alone. -/
def drawPixel (cv : Canvas) (x : Fin 64) (y : Fin 32) (bit : Bool) : Canvas :=
  if bit then (FrameBuffer.set cv.1 x y (!FrameBuffer.get cv.1 x y), cv.2 || FrameBuffer.get cv.1 x y) else cv

/-- Column `c` of one sprite row (R151): bit 7 is the leftmost pixel, and the column wraps on its own. -/
def drawColumn (x0 : Nat) (y : Fin 32) (row : Byte) (cv : Canvas) (c : Nat) : Canvas :=
  drawPixel cv (Fin.ofNat 64 (x0 + c)) y (row.getLsbD (7 - c))

/-- One sprite row, its 8 pixels from left to right (R151). -/
def drawRow (x0 : Nat) (y : Fin 32) (row : Byte) (cv : Canvas) : Canvas :=
  (List.range 8).foldl (drawColumn x0 y row) cv

/-- The sprite rows from screen row `y0` downward, each row wrapping on its own (R151). -/
def drawRows (x0 : Nat) : Nat → List Byte → Canvas → Canvas
  | _, [], cv => cv
  | y0, row :: rest, cv => drawRows x0 (y0 + 1) rest (drawRow x0 (Fin.ofNat 32 y0) row cv)

/-! ## Keys -/

/-- One key of a key vector: `KEY[k]` or `KPREV[k]` (R32, R38). -/
def keyAt (keys : Vector Bool 16) (k : Nibble) : Bool := keys[k.toNat]'k.isLt

/-- The 16 key numbers in ascending order. -/
def keyNumbers : List Nibble := (List.range 16).map (BitVec.ofNat 4)

/-- The least key that went from unpressed to pressed since the last sample: the least element of `T` (R166). -/
def firstNewKey (key kprev : Vector Bool 16) : Option Nibble :=
  keyNumbers.find? fun k => keyAt key k && !keyAt kprev k

/-! ## Random byte -/

/-- The byte `RandByte()` draws (R34): a free value. -/
def randByte (s : State) : Byte := (Config.rngNext s.rng).1

/-- `RNG` after `RandByte()` (R34). -/
def State.drawRng (s : State) : State := s.setRng (Config.rngNext s.rng).2

end Sys2Proof.Machine
end

