-- ==== Sys2Proof/Machine/Operands.lean ====
section
/-! DEFINITION. How each operand is formed (spec/30_encoding.md R73, spec/43_index_memory.md R146): none is sign-extended,
scaled or shifted, and every value is unsigned. -/

namespace Sys2Proof.Machine

/-- `zext_16(NNN)` (R73): a 12-bit address operand as it is loaded into PC or I. -/
def zextAddr (nnn : Addr12) : Addr := nnn.setWidth 16

/-- `zext_16(V[x])` (R113, R141). -/
def zextByte (b : Byte) : Addr := b.setWidth 16

/-- `V[X] & 0x0F` as a key number or a font digit (R142, R160, R161; the spec's decisions D19, D20). -/
def lowNibble (b : Byte) : Nibble := b.setWidth 4

/-- `zext_8(k)`: a key number as a register value (R166). -/
def zextNibble (k : Nibble) : Byte := k.setWidth 8

/-- The source of 8XY6 and 8XYE under a shift policy (R128, R130). -/
def shiftSource (p : Config.ShiftPolicy) (s : State) (x y : Nibble) : Byte :=
  match p with
  | .vxInPlace => s.readV x
  | .vyIntoVx => s.readV y

/-- The number of the register BNNN adds under a jump policy (R113): V0, or VX with `X = op[11:8] = NNN[11:8]`. -/
def offsetRegister (p : Config.JumpOffsetPolicy) (nnn : Addr12) : Nibble :=
  match p with
  | .v0 => 0x0#4
  | .vx => nnn.extractLsb' 8 4

/-- What FX55 and FX65 leave in I under a policy (R144, R145): I, or `(I + X + 1) mod 65536`. -/
def indexAfterBlock (p : Config.LoadStoreIPolicy) (i : Addr) (x : Nibble) : Addr :=
  match p with
  | .iUnchanged => i
  | .iIncrement => i + x.setWidth 16 + 1#16

/-- The address of a digit's glyph (R36, R142): `FONT_BASE + 5 * d`. -/
def glyphAddress (d : Nibble) : Addr := BitVec.ofNat 16 (fontBase + 5 * d.toNat)

/-- The three decimal digits of a byte, hundreds first, one to a byte (R143; order by the spec's decision D21). -/
def bcdDigits (b : Byte) : List Byte :=
  [BitVec.ofNat 8 (b.toNat / 100), BitVec.ofNat 8 (b.toNat / 10 % 10), BitVec.ofNat 8 (b.toNat % 10)]

/-- The column a sprite starts at, `V[X] mod 64` (R151). -/
def spriteColumn (b : Byte) : Nat := b.toNat % 64

/-- The row a sprite starts at, `V[Y] mod 32` (R151). -/
def spriteRow (b : Byte) : Nat := b.toNat % 32

end Sys2Proof.Machine
end

