-- ==== Sys2Proof/Machine/Flags.lean ====
section
/-! DEFINITION. The flag computations (spec/10_state.md R22, spec/42_alu.md R133, R134): VF is the only flag, and it is
written as 0 or 1 in all 8 bits. -/

namespace Sys2Proof.Machine

/-- A flag as VF holds it: 0x00 or 0x01 (R22). -/
def flagByte (c : Bool) : Byte := if c then 1#8 else 0#8

/-- The carry of an 8-bit add (R126): the sum, formed without wrap, exceeds 255. -/
def carry (a b : Byte) : Bool := decide (a.toNat + b.toNat > 255)

/-- NOT borrow of `a - b` (R127, R129): no borrow is needed, `a >= b`. -/
def notBorrow (a b : Byte) : Bool := decide (a.toNat ≥ b.toNat)

/-- The bit a right shift by one loses (R128): `src[0]`. -/
def bitOutRight (src : Byte) : Bool := src.getLsbD 0

/-- The bit a left shift by one loses (R130): `src[7]`. -/
def bitOutLeft (src : Byte) : Bool := src.getLsbD 7

/-- The two writes of a flag-setting instruction in their order (R131): the result to `V[X]`, then the flag to
`V[15]`, so that the flag survives where X is 15. -/
def State.writeResultFlag (s : State) (x : Nibble) (r : Byte) (c : Bool) : State :=
  (s.writeV x r).writeV vf (flagByte c)

end Sys2Proof.Machine
end

