-- ==== Sys2Proof/Machine/Alu.lean ====
section
/-! DEFINITION. Loads of registers, arithmetic, logic, shifts and the random byte (spec/42_alu.md R120 to R132). Every
operand is read on the state before the instruction. None of these can fault. -/

namespace Sys2Proof.Machine

/-- `6XNN` (R120). -/
def execLdImm (x : Nibble) (nn : Byte) (s : State) : Result :=
  .next (s.writeV x nn).advance

/-- `7XNN` (R121): wraps mod 256 and writes no flag. -/
def execAddImm (x : Nibble) (nn : Byte) (s : State) : Result :=
  .next (s.writeV x (s.readV x + nn)).advance

/-- `8XY0` (R122). -/
def execLdReg (x y : Nibble) (s : State) : Result :=
  .next (s.writeV x (s.readV y)).advance

/-- `8XY1` (R123): VF is not written as a flag (the spec's decision D8). -/
def execOrReg (x y : Nibble) (s : State) : Result :=
  .next (s.writeV x (s.readV x ||| s.readV y)).advance

/-- `8XY2` (R124): as 8XY1 for VF. -/
def execAndReg (x y : Nibble) (s : State) : Result :=
  .next (s.writeV x (s.readV x &&& s.readV y)).advance

/-- `8XY3` (R125): as 8XY1 for VF. -/
def execXorReg (x y : Nibble) (s : State) : Result :=
  .next (s.writeV x (s.readV x ^^^ s.readV y)).advance

/-- `8XY4` (R126): VF is the carry. -/
def execAddReg (x y : Nibble) (s : State) : Result :=
  .next (s.writeResultFlag x (s.readV x + s.readV y) (carry (s.readV x) (s.readV y))).advance

/-- `8XY5` (R127): VF is NOT borrow. -/
def execSubReg (x y : Nibble) (s : State) : Result :=
  .next (s.writeResultFlag x (s.readV x - s.readV y) (notBorrow (s.readV x) (s.readV y))).advance

/-- 8XY6 under any shift policy (R128). -/
def shiftRight (p : Config.ShiftPolicy) (x y : Nibble) (s : State) : Result :=
  .next (s.writeResultFlag x (shiftSource p s x y >>> 1) (bitOutRight (shiftSource p s x y))).advance

/-- `8XY6` (R128) under the decided policy. -/
def execShr (x y : Nibble) (s : State) : Result := shiftRight shiftPolicy x y s

/-- `8XY7` (R129): VY minus VX, VF is NOT borrow. -/
def execSubn (x y : Nibble) (s : State) : Result :=
  .next (s.writeResultFlag x (s.readV y - s.readV x) (notBorrow (s.readV y) (s.readV x))).advance

/-- 8XYE under any shift policy (R130). -/
def shiftLeft (p : Config.ShiftPolicy) (x y : Nibble) (s : State) : Result :=
  .next (s.writeResultFlag x (shiftSource p s x y <<< 1) (bitOutLeft (shiftSource p s x y))).advance

/-- `8XYE` (R130) under the decided policy. -/
def execShl (x y : Nibble) (s : State) : Result := shiftLeft shiftPolicy x y s

/-- `CXNN` (R132) for a drawn byte `r`, on the state whose `RNG` has been advanced. -/
def randomInto (r : Byte) (x : Nibble) (nn : Byte) (s : State) : Result :=
  .next (s.writeV x (r &&& nn)).advance

/-- `CXNN` (R132): the byte is a free value (R34, D25). -/
def execRnd (x : Nibble) (nn : Byte) (s : State) : Result := randomInto (randByte s) x nn s.drawRng

end Sys2Proof.Machine
end

