-- ==== Sys2Proof/Machine/ControlFlow.lean ====
section
/-! DEFINITION. Return, jump, call, jump with offset and the skips on registers and immediates
(spec/41_control_flow.md R110 to R117). -/

namespace Sys2Proof.Machine

/-- `00EE` (R110): pop the stack into PC; no 2 is added. -/
def execRet (s : State) : Result :=
  finish s ((pop s).map fun r => r.2.setPc r.1)

/-- `1NNN` (R111). -/
def execJp (nnn : Addr12) (s : State) : Result :=
  .next (s.setPc (zextAddr nnn))

/-- `2NNN` (R112): push `pcn`, then jump. -/
def execCall (nnn : Addr12) (s : State) : Result :=
  finish s ((push s s.pcn).map fun t => t.setPc (zextAddr nnn))

/-- BNNN under any jump policy (R113): a 16-bit add, not reduced mod 4096. -/
def jumpOffset (p : Config.JumpOffsetPolicy) (nnn : Addr12) (s : State) : Result :=
  .next (s.setPc (zextAddr nnn + zextByte (s.readV (offsetRegister p nnn))))

/-- `BNNN` (R113) under the decided policy. -/
def execJpOff (nnn : Addr12) (s : State) : Result := jumpOffset jumpOffsetPolicy nnn s

/-- `3XNN` (R114). -/
def execSeImm (x : Nibble) (nn : Byte) (s : State) : Result :=
  .next (s.skipIf (s.readV x == nn))

/-- `4XNN` (R115). -/
def execSneImm (x : Nibble) (nn : Byte) (s : State) : Result :=
  .next (s.skipIf (s.readV x != nn))

/-- `5XY0` (R116). -/
def execSeReg (x y : Nibble) (s : State) : Result :=
  .next (s.skipIf (s.readV x == s.readV y))

/-- `9XY0` (R117). -/
def execSneReg (x y : Nibble) (s : State) : Result :=
  .next (s.skipIf (s.readV x != s.readV y))

end Sys2Proof.Machine
end

