-- ==== Sys2Proof/Machine/Display.lean ====
section
/-! DEFINITION. The display instructions (spec/44_display.md R150, R151). -/

namespace Sys2Proof.Machine

/-- `00E0` (R150): every pixel off; VF is not written. -/
def execCls (s : State) : Result :=
  .next (s.setFb FrameBuffer.clear).advance

/-- `DXYN` once its rows are read (R151): the origin is read before VF is written, and VF is written last. -/
def drawSprite (x y : Nibble) (rows : List Byte) (s : State) : State :=
  let cv := drawRows (spriteColumn (s.readV x)) (spriteRow (s.readV y)) rows (s.fb, false)
  ((s.setFb cv.1).writeV vf (flagByte cv.2)).advance

/-- `DXYN` (R151): the rows are read, and bound-checked, before anything is drawn. -/
def execDrw (x y n : Nibble) (s : State) : Result :=
  finish s ((memRead s.mem s.i.toNat n.toNat).map fun rows => drawSprite x y rows s)

end Sys2Proof.Machine
end

