-- ==== Sys2Proof/Machine/IndexMemory.lean ====
section
/-! DEFINITION. The index register and the data accesses of memory (spec/43_index_memory.md R140 to R145). The base
of every access is I as it was before the instruction; none of these writes VF as a flag. -/

namespace Sys2Proof.Machine

/-- `ANNN` (R140). -/
def execLdI (nnn : Addr12) (s : State) : Result :=
  .next (s.setI (zextAddr nnn)).advance

/-- `FX1E` (R141): mod 65536, VF not written (the spec's decision D7). -/
def execAddI (x : Nibble) (s : State) : Result :=
  .next (s.setI (s.i + zextByte (s.readV x))).advance

/-- `FX29` (R142): the digit is the low nibble of VX (the spec's decision D20). -/
def execLdFont (x : Nibble) (s : State) : Result :=
  .next (s.setI (glyphAddress (lowNibble (s.readV x)))).advance

/-- `FX33` (R143). -/
def execStoreBcd (x : Nibble) (s : State) : Result :=
  finish s ((memWrite s.mem s.i.toNat (bcdDigits (s.readV x))).map fun m => (s.setMem m).advance)

/-- FX55 under any policy for I (R144). -/
def storeBlock (p : Config.LoadStoreIPolicy) (x : Nibble) (s : State) : Result :=
  finish s ((memWrite s.mem s.i.toNat (blockOf s.v x)).map fun m =>
    ((s.setMem m).setI (indexAfterBlock p s.i x)).advance)

/-- `FX55` (R144) under the decided policy. -/
def execStoreRegs (x : Nibble) (s : State) : Result := storeBlock loadStoreIPolicy x s

/-- FX65 under any policy for I (R145). -/
def readBlock (p : Config.LoadStoreIPolicy) (x : Nibble) (s : State) : Result :=
  finish s ((memRead s.mem s.i.toNat (x.toNat + 1)).map fun bytes =>
    ((s.setV (loadBlock s.v 0 bytes)).setI (indexAfterBlock p s.i x)).advance)

/-- `FX65` (R145) under the decided policy. -/
def execLoadRegs (x : Nibble) (s : State) : Result := readBlock loadStoreIPolicy x s

end Sys2Proof.Machine
end

