-- ==== Sys2Proof/Machine/KeypadTimers.lean ====
section
/-! DEFINITION. The key skips, the key wait and the timer instructions (spec/45_keypad_timers.md R160 to R165), and what
`Step` does while it waits for a key (R166). -/

namespace Sys2Proof.Machine

/-- `EX9E` (R160): the key is the low nibble of VX (the spec's decision D19). -/
def execSkp (x : Nibble) (s : State) : Result :=
  .next (s.skipIf (keyAt s.key (lowNibble (s.readV x))))

/-- `EXA1` (R161). -/
def execSknp (x : Nibble) (s : State) : Result :=
  .next (s.skipIf (!keyAt s.key (lowNibble (s.readV x))))

/-- `FX0A` (R162): enters the wait, with the keys as they are now for reference; V[X] is written by the step that
ends the wait. -/
def execWaitKey (x : Nibble) (s : State) : Result :=
  .next (((s.setWaitx x).setKprev s.key).setRun .waitingForKey).advance

/-- `FX07` (R163). -/
def execLdFromDt (x : Nibble) (s : State) : Result :=
  .next (s.writeV x s.dt).advance

/-- `FX15` (R164). -/
def execSetDt (x : Nibble) (s : State) : Result :=
  .next (s.setDt (s.readV x)).advance

/-- `FX18` (R165). -/
def execSetSt (x : Nibble) (s : State) : Result :=
  .next (s.setSt (s.readV x)).advance

/-- `KeyWaitPoll` (R166): the least newly pressed key, if there is one, goes to `V[WAITX]` and ends the wait; the sample is
refreshed in both cases; PC is not changed. -/
def keyWaitPoll (s : State) : State :=
  match firstNewKey s.key s.kprev with
  | some k => ((s.writeV s.waitx (zextNibble k)).setRun .running).setKprev s.key
  | none => s.setKprev s.key

end Sys2Proof.Machine
end

