-- ==== Sys2Proof/Machine/Dispatch.lean ====
section
/-! DEFINITION. `Execute` (spec/40_step_cycle.md R93): one arm per instruction of spec/30_encoding.md R74. -/

namespace Sys2Proof.Machine

/-- The meaning of each instruction, on the state whose `PC` is the instruction's own address (R93). -/
def exec (i : Instr) (s : State) : Host.Outcome State Fault Refusal :=
  match i with
  | .cls => Sys2Proof.Machine.execCls s    -- 00E0
  | .ret => Sys2Proof.Machine.execRet s    -- 00EE
  | .jp nnn => Sys2Proof.Machine.execJp nnn s    -- 1NNN
  | .call nnn => Sys2Proof.Machine.execCall nnn s    -- 2NNN
  | .seImm x nn => Sys2Proof.Machine.execSeImm x nn s    -- 3XNN
  | .sneImm x nn => Sys2Proof.Machine.execSneImm x nn s    -- 4XNN
  | .seReg x y => Sys2Proof.Machine.execSeReg x y s    -- 5XY0
  | .ldImm x nn => Sys2Proof.Machine.execLdImm x nn s    -- 6XNN
  | .addImm x nn => Sys2Proof.Machine.execAddImm x nn s    -- 7XNN
  | .ldReg x y => Sys2Proof.Machine.execLdReg x y s    -- 8XY0
  | .orReg x y => Sys2Proof.Machine.execOrReg x y s    -- 8XY1
  | .andReg x y => Sys2Proof.Machine.execAndReg x y s    -- 8XY2
  | .xorReg x y => Sys2Proof.Machine.execXorReg x y s    -- 8XY3
  | .addReg x y => Sys2Proof.Machine.execAddReg x y s    -- 8XY4
  | .subReg x y => Sys2Proof.Machine.execSubReg x y s    -- 8XY5
  | .shr x y => Sys2Proof.Machine.execShr x y s    -- 8XY6
  | .subn x y => Sys2Proof.Machine.execSubn x y s    -- 8XY7
  | .shl x y => Sys2Proof.Machine.execShl x y s    -- 8XYE
  | .sneReg x y => Sys2Proof.Machine.execSneReg x y s    -- 9XY0
  | .ldI nnn => Sys2Proof.Machine.execLdI nnn s    -- ANNN
  | .jpOff nnn => Sys2Proof.Machine.execJpOff nnn s    -- BNNN
  | .rnd x nn => Sys2Proof.Machine.execRnd x nn s    -- CXNN
  | .drw x y n => Sys2Proof.Machine.execDrw x y n s    -- DXYN
  | .skp x => Sys2Proof.Machine.execSkp x s    -- EX9E
  | .sknp x => Sys2Proof.Machine.execSknp x s    -- EXA1
  | .ldFromDt x => Sys2Proof.Machine.execLdFromDt x s    -- FX07
  | .waitKey x => Sys2Proof.Machine.execWaitKey x s    -- FX0A
  | .setDt x => Sys2Proof.Machine.execSetDt x s    -- FX15
  | .setSt x => Sys2Proof.Machine.execSetSt x s    -- FX18
  | .addI x => Sys2Proof.Machine.execAddI x s    -- FX1E
  | .ldFont x => Sys2Proof.Machine.execLdFont x s    -- FX29
  | .storeBcd x => Sys2Proof.Machine.execStoreBcd x s    -- FX33
  | .storeRegs x => Sys2Proof.Machine.execStoreRegs x s    -- FX55
  | .loadRegs x => Sys2Proof.Machine.execLoadRegs x s    -- FX65

end Sys2Proof.Machine
end

