-- ==== Sys2Proof/Machine/Step.lean ====
section
/-! DEFINITION. The `Step` event (spec/40_step_cycle.md R90, R99) and where it fetches. -/

namespace Sys2Proof.Machine

/-- The RUNNING case of `Step` (R90): fetch, decode, execute; the first failing check wins (R96). -/
def stepRunning (s : State) : Host.Outcome State Fault Refusal :=
  match fetch s with
  | .ok op =>
    match decode op with
    | some i => exec i s
    | none => finish s (.raised .invalidOpcode)
  | .raised f => finish s (.raised f)
  | .stuck f => finish s (.stuck f)

/-- `Step` (R90): one instruction in RUNNING, one poll in WAITING_FOR_KEY, nothing in HALTED (R99). -/
def step (s : State) : Host.Outcome State Fault Refusal :=
  match s.run with
  | .halted => .next s
  | .waitingForKey => .next (keyWaitPoll s)
  | .running => stepRunning s

/-- The address `withFetchWord` stores at: PC, or the entry point 0x200 where nothing can be fetched at PC (R91). -/
def fetchAddress (s : State) : Nat := if s.pc.toNat + 1 > 0xFFF then 0x200 else s.pc.toNat

/-- `s` with a table word's instruction stored where `step` fetches next, and what the fetch needs (assumption log 13):
the two bytes at PC in memory order, the run state RUNNING (with no fault latched, R33), and a PC that can be fetched from. -/
def State.withFetchWord (s : State) (nbits w : Nat) : State :=
  (((s.setMem (Memory.setBytes s.mem (fetchAddress s) (layOut (tableWord nbits w)))).setPc
    (BitVec.ofNat 16 (fetchAddress s))).setRun .running).setFault none

end Sys2Proof.Machine
end

