-- ==== Sys2Proof/Machine/Events.lean ====
section
/-! DEFINITION. The interface events of spec/10_state.md R41, each an atomic transition of the whole state, and the outputs
the host can sample. `Step` is Sys2Proof.Machine.step; the others stand here. The host may raise them in any order
and number (R41, R186): no order is built in (assumption log 15). -/

namespace Sys2Proof.Machine

/-- A timer's next value (R184, R185): one less, and never below zero. -/
def countDown (t : Byte) : Byte := if t.toNat > 0 then t - 1#8 else t

/-- `TickTimers` (R184): both timers, the same in every run state. -/
def tickTimers (s : State) : State := (s.setDt (countDown s.dt)).setSt (countDown s.st)

/-- `SetKeyState(k, p)` (R187): one key of the latch. The port's key argument is 4 bits (R188). -/
def setKeyState (k : Nibble) (p : Bool) (s : State) : State := s.setKey (s.key.set k.toNat p k.isLt)

/-- What `LoadRom` answers (R204). -/
inductive LoadResult where
  | ok
  | romTooLarge
deriving DecidableEq, Repr

/-- `LoadRom(bytes)` (R204, R205): all or nothing, verbatim at 0x200; it is no `MemWrite` and raises no fault (R60, R182). -/
def loadRom (bytes : List Byte) (s : State) : LoadResult × State :=
  if bytes.length > 3584 then (.romTooLarge, s) else (.ok, s.setMem (Memory.setBytes s.mem 0x200 bytes))

/-- `SeedRng(seed)` (R34, R41). -/
def seedRng (seed : Nat) (s : State) : State := s.setRng (Config.rngSeed seed)

/-- `ReadDisplay` (R189): the grid, row by row; it changes no state. -/
def readDisplay (s : State) : FrameBuffer := s.fb

/-- `sound_active` (R190). -/
def soundActive (s : State) : Bool := s.st != 0#8

/-- The interface events of R41. -/
inductive Event where
  | reset (rng : Nat)                    -- `rng`: the unspecified value RNG holds afterwards (R200), any value
  | loadRom (bytes : List Byte)
  | step
  | tickTimers
  | setKeyState (k : Nibble) (p : Bool)
  | readDisplay
  | seedRng (seed : Nat)
deriving DecidableEq, Repr

/-- The result of an event (the column "result" of R41). -/
inductive Reply where
  | none
  | loaded (r : LoadResult)
  | stepped (run : RunState) (fault : Option FatalFault)
  | grid (fb : FrameBuffer)
deriving DecidableEq, Repr

/-- One event on the whole state (R41): the state after it and its result, or the stop of a `Step`. -/
def handle (e : Event) (s : State) : Host.Outcome (State × Reply) Fault Refusal :=
  match e with
  | .reset rng => .next (State.resetWith rng, .none)
  | .loadRom bytes => .next ((loadRom bytes s).2, .loaded (loadRom bytes s).1)
  | .step =>
    match step s with
    | .next t => .next (t, .stepped t.run t.fault)
    | .fault f => .fault f
    | .refused r => .refused r
  | .tickTimers => .next (tickTimers s, .none)
  | .setKeyState k p => .next (setKeyState k p s, .none)
  | .readDisplay => .next (s, .grid (readDisplay s))
  | .seedRng seed => .next (seedRng seed s, .none)

end Sys2Proof.Machine
end

