-- ==== Sys2Proof/Safety.lean ====
section
/-! DEFINITION. What counts as a safe run, in the terms the statements use: the invariant of the reachable states, a run of
events, and the state a well-formed program never reaches (spec/70_reset_and_hazards.md R209). -/

namespace Sys2Proof.Machine

/-- What every reachable state satisfies. -/
structure Invariant (s : State) : Prop where
  /-- Memory keeps its canonical form. -/
  memory : Memory.wf s.mem = true
  /-- No byte below the ROM load address differs from its reset contents (R51, R58). -/
  guarded : ∀ c ∈ s.mem, 0x200 ≤ c.1
  /-- "only values 0 to 16 are reachable" (R26). -/
  depth : s.sp.toNat ≤ 16
  /-- A return address is at most 0x1000 (R110, R112). -/
  returns : ∀ j : Nibble, (s.stack[j.toNat]'j.isLt).toNat ≤ 0x1000
  /-- "The largest value PC can take is 0x10FE" (R24). -/
  counter : s.pc.toNat ≤ 0x10FE
  /-- FAULT "is `None` exactly when `RUN ≠ HALTED`" (R33). -/
  latch : s.fault = none ↔ s.run ≠ .halted

/-- The core has not halted: what a well-formed program keeps (R209). -/
def Safe (s : State) : Prop := s.run ≠ .halted

/-- The state after a sequence of events (R41), stopping where a `Step` stops. -/
def runEvents : List Event → State → Host.Outcome State Fault Refusal
  | [], s => .next s
  | e :: es, s =>
    match handle e s with
    | .next (t, _) => runEvents es t
    | .fault f => .fault f
    | .refused r => .refused r

/-! ## Frames: what an instruction leaves unchanged (spec/40_step_cycle.md R93) -/

/-- Every piece of state but the V registers, PC and MEM, which the frames treat apart. -/
inductive Part where
  | i | sp | stack | dt | st | run | waitx | kprev | fault | rng | fb | key
deriving DecidableEq, Repr

/-- That piece of state has the same value in both states. -/
def Part.kept (p : Part) (s t : State) : Prop :=
  match p with
  | .i => t.i = s.i
  | .sp => t.sp = s.sp
  | .stack => t.stack = s.stack
  | .dt => t.dt = s.dt
  | .st => t.st = s.st
  | .run => t.run = s.run
  | .waitx => t.waitx = s.waitx
  | .kprev => t.kprev = s.kprev
  | .fault => t.fault = s.fault
  | .rng => t.rng = s.rng
  | .fb => t.fb = s.fb
  | .key => t.key = s.key

/-- From `s` to `t`, no V register outside `regs` and no part outside `parts` changes. PC and MEM are not spoken of. -/
structure Frame (regs : List Nibble) (parts : List Part) (s t : State) : Prop where
  vKept : ∀ k, k ∉ regs → t.readV k = s.readV k
  partsKept : ∀ p, p ∉ parts → p.kept s t

/-- Every byte of memory reads as before. -/
def MemKept (s t : State) : Prop := ∀ a, Memory.get t.mem a = Memory.get s.mem a

/-- Every byte of memory outside the `n` bytes from `a` on reads as before. -/
def MemKeptOutside (a n : Nat) (s t : State) : Prop :=
  ∀ b, (b < a ∨ a + n ≤ b) → Memory.get t.mem b = Memory.get s.mem b

/-- The `n` registers `V[0]` to `V[n − 1]`. -/
def firstRegs (n : Nat) : List Nibble := (List.range n).map (BitVec.ofNat 4)

/-- The bit of an `n`-row sprite at base `I` that falls on the pixel `(px, py)` when the sprite starts at `(x0, y0)` (R151): row
`(py − y0) mod 32`, column `(px − x0) mod 64`, bit 7 leftmost; no bit falls on a pixel outside the sprite. -/
def spriteBit (m : Memory) (base x0 y0 n : Nat) (px : Fin 64) (py : Fin 32) : Bool :=
  let r := (py.val + (32 - y0)) % 32
  let c := (px.val + (64 - x0)) % 64
  decide (r < n) && decide (c < 8) && (Memory.get m (base + r)).getLsbD (7 - c)

/-! ## The tables of the whole machine, as the spec lists them -/

/-- Which V registers an instruction may write (R21): `V[X]`, the flag `V[15]`, both, or `V[0]` to `V[X]`. FX0A writes none itself
(R162). -/
def mayWriteV (i : Instr) (k : Nibble) : Bool :=
  match i with
  | .ldImm x _ | .addImm x _ | .ldReg x _ | .orReg x _ | .andReg x _ | .xorReg x _ | .rnd x _ | .ldFromDt x => k == x
  | .addReg x _ | .subReg x _ | .shr x _ | .subn x _ | .shl x _ => k == x || k == 0xF#4
  | .drw _ _ _ => k == 0xF#4
  | .loadRegs x => decide (k.toNat ≤ x.toNat)
  | .cls | .ret | .jp _ | .call _ | .seImm _ _ | .sneImm _ _ | .seReg _ _ | .sneReg _ _ | .ldI _ | .jpOff _ | .skp _
  | .sknp _ | .waitKey _ | .setDt _ | .setSt _ | .addI _ | .ldFont _ | .storeBcd _ | .storeRegs _ => false

/-- The fault an instruction raises in a state with `SP ≤ 16`, if any (R96, R170): no other instruction has a check. -/
def raisedBy (i : Instr) (s : State) : Option FatalFault :=
  match i with
  | .ret => if s.sp.toNat = 0 then some .stackUnderflow else none
  | .call _ => if s.sp.toNat = 16 then some .stackOverflow else none
  | .drw _ _ n => if 0 < n.toNat ∧ s.i.toNat + n.toNat - 1 > 0xFFF then some .memoryOutOfBounds else none
  | .storeBcd _ =>
    if s.i.toNat + 2 > 0xFFF then some .memoryOutOfBounds else if s.i.toNat < 0x200 then some .writeProtected else none
  | .storeRegs x =>
    if s.i.toNat + x.toNat > 0xFFF then some .memoryOutOfBounds
    else if s.i.toNat < 0x200 then some .writeProtected else none
  | .loadRegs x => if s.i.toNat + x.toNat > 0xFFF then some .memoryOutOfBounds else none
  | .cls | .jp _ | .seImm _ _ | .sneImm _ _ | .seReg _ _ | .ldImm _ _ | .addImm _ _ | .ldReg _ _ | .orReg _ _
  | .andReg _ _ | .xorReg _ _ | .addReg _ _ | .subReg _ _ | .shr _ _ | .subn _ _ | .shl _ _ | .sneReg _ _ | .ldI _
  | .jpOff _ | .rnd _ _ | .skp _ | .sknp _ | .ldFromDt _ | .waitKey _ | .setDt _ | .setSt _ | .addI _ | .ldFont _ => none

/-- The value of the two bytes at PC read as one big-endian number (R52). -/
def wordAtPc (s : State) : Nat :=
  256 * (Memory.get s.mem s.pc.toNat).toNat + (Memory.get s.mem (s.pc.toNat + 1)).toNat

/-- The glyph table of R36, row by row, digit by digit. -/
def glyphs : List (List Byte) :=
  [[0xF0, 0x90, 0x90, 0x90, 0xF0], [0x20, 0x60, 0x20, 0x20, 0x70], [0xF0, 0x10, 0xF0, 0x80, 0xF0],
   [0xF0, 0x10, 0xF0, 0x10, 0xF0], [0x90, 0x90, 0xF0, 0x10, 0x10], [0xF0, 0x80, 0xF0, 0x10, 0xF0],
   [0xF0, 0x80, 0xF0, 0x90, 0xF0], [0xF0, 0x10, 0x20, 0x40, 0x40]] ++
  [[0xF0, 0x90, 0xF0, 0x90, 0xF0], [0xF0, 0x90, 0xF0, 0x10, 0xF0], [0xF0, 0x90, 0xF0, 0x90, 0x90],
   [0xE0, 0x90, 0xE0, 0x90, 0xE0], [0xF0, 0x80, 0x80, 0x80, 0xF0], [0xE0, 0x90, 0x90, 0x90, 0xE0],
   [0xF0, 0x80, 0xF0, 0x80, 0xF0], [0xF0, 0x80, 0xF0, 0x80, 0x80]]

end Sys2Proof.Machine
end

