-- ==== Sys2Proof/Certificates/Slice0/Obligations.lean ====
section
/-! DEFINITION. The statements for the provers. Each says which rule of spec/ it formalises; where a rule carries a
"[decision: …]" mark, or a clause rests on an entry of the assumption log, the docstring names it. A statement `∃ t, exec i s =
.next t ∧ …` says that the instruction completes as well as what it leaves. -/

open Sys2Proof Sys2Proof.Machine

/-! ## Encoding (spec/30_encoding.md) -/

/-- V-ENC of spec/95_test_vectors.md: words written out from R74 decode as listed, the illegal ones to nothing. -/
def Obligations.SpecWordsDecodeAsListed : Prop :=
  decode 0x00E0#16 = some .cls ∧ decode 0x00EE#16 = some .ret ∧ decode 0x1ABC#16 = some (.jp 0xABC#12) ∧
  decode 0x3A7F#16 = some (.seImm 0xA#4 0x7F#8) ∧ decode 0x6A02#16 = some (.ldImm 0xA#4 0x02#8) ∧
  decode 0x8AB5#16 = some (.subReg 0xA#4 0xB#4) ∧ decode 0xC10F#16 = some (.rnd 0x1#4 0x0F#8) ∧
  decode 0xD125#16 = some (.drw 0x1#4 0x2#4 0x5#4) ∧ decode 0xE4A1#16 = some (.sknp 0x4#4) ∧
  decode 0xFF65#16 = some (.loadRegs 0xF#4) ∧ decode 0x0123#16 = none ∧ decode 0x5121#16 = none ∧
  decode 0x8AB8#16 = none ∧ decode 0xF056#16 = none

/-- R71, R73, R74: no operand bit of any encoding is dropped, as a word and as bytes in memory order (R52). -/
def Obligations.DecodeOfEncodedInstruction : Prop :=
  ∀ (i : Instr) (rest : List Byte),
    decode (encode i) = some i ∧ decodeBytes (layOut (encode i) ++ rest) = .instr i rest

/-- R71, R74, R79: every bit of a legal word is a fixed bit of its pattern or an operand bit. -/
def Obligations.EncodeOfDecodedWord : Prop :=
  ∀ (op : OpWord) (i : Instr), decode op = some i → encode i = op

/-- R74, R75, R77: the two-level switch decodes a word exactly when a row of the opcode table selects it, to the
instruction of that row, so that at most one row selects a word. -/
def Obligations.DecodeSelectsTheOnlyRow : Prop :=
  ∀ op : OpWord,
    (∀ i, decode op = some i → i.row ∈ encodingRows ∧ op &&& i.row.mask = i.row.fixed) ∧
    (∀ r ∈ encodingRows, op &&& r.mask = r.fixed → ∃ i, decode op = some i ∧ i.row = r)

/-! ## The step cycle (spec/40_step_cycle.md) -/

/-- R52, R90: in RUNNING, with both bytes at PC inside MEM, a step is the execution of the instruction that the two bytes,
the first as the high byte, decode to. -/
def Obligations.StepRunsTheDecodedInstruction : Prop :=
  ∀ (s : State) (op : OpWord) (i : Instr), s.run = .running → s.pc.toNat + 1 ≤ 0xFFF →
    op.toNat = wordAtPc s → decode op = some i → step s = exec i s

/-- R91, R92, R96: the fetch bound comes first, then decoding; each fault is taken as R178 says. The fault entry and the
illegality of every unlisted value are the spec's decisions D10, D14 and D15. -/
def Obligations.FetchAndDecodeFaultsHalt : Prop :=
  ∀ s : State, s.run = .running →
    (s.pc.toNat + 1 > 0xFFF →
      step s = .next { s with run := .halted, fault := some .programCounterOutOfBounds }) ∧
    (∀ op : OpWord, s.pc.toNat + 1 ≤ 0xFFF → op.toNat = wordAtPc s → decode op = none →
      step s = .next { s with run := .halted, fault := some .invalidOpcode })

/-- R166 (the spec's decision D18): a waiting step with no newly pressed key only takes the sample; with one, the least goes
to `V[WAITX]` and the core runs again, PC as it was. -/
def Obligations.WaitingStepPollsTheKeys : Prop :=
  ∀ s : State, s.run = .waitingForKey →
    ((∀ k, ¬(keyAt s.key k = true ∧ keyAt s.kprev k = false)) → step s = .next { s with kprev := s.key }) ∧
    (∀ k0 : Nibble, keyAt s.key k0 = true → keyAt s.kprev k0 = false →
      (∀ k : Nibble, k.toNat < k0.toNat → ¬(keyAt s.key k = true ∧ keyAt s.kprev k = false)) →
      ∃ t, step s = .next t ∧ (t.readV s.waitx).toNat = k0.toNat ∧ t.run = .running ∧ t.kprev = s.key ∧
        t.pc = s.pc ∧ Frame [s.waitx] [.run, .kprev] s t ∧ MemKept s t)

/-- DOC1 §8 as R166 quotes it (the spec's decision D18): across any number of steps, while no key goes from unpressed to
pressed, the core stays in WAITING_FOR_KEY and only the sample changes. -/
def Obligations.KeyWaitLastsUntilAPress : Prop :=
  ∀ (n : Nat) (s : State), s.run = .waitingForKey → (∀ k, keyAt s.key k = true → keyAt s.kprev k = true) →
    runEvents (List.replicate (n + 1) .step) s = .next { s with kprev := s.key }

/-! ## Control transfer (spec/41_control_flow.md) -/

/-- R110: 00EE with an empty stack faults and leaves the rest alone; otherwise PC is the newest entry, `SP` is one less, and the
slot keeps its value. -/
def Obligations.ReturnPopsTheNewestAddress : Prop :=
  ∀ s : State,
    (s.sp.toNat = 0 → exec .ret s = .next { s with run := .halted, fault := some .stackUnderflow }) ∧
    (∀ j : Nibble, s.sp.toNat = j.toNat + 1 →
      ∃ t, exec .ret s = .next t ∧ t.sp.toNat = j.toNat ∧ t.pc = s.stack[j.toNat]'j.isLt ∧
        Frame [] [.sp] s t ∧ MemKept s t)

/-- R112: 2NNN with 16 addresses held faults and leaves the rest alone; otherwise it stores PC + 2 in the next entry and
nothing in the others, `SP` is one more, and PC is NNN. -/
def Obligations.CallPushesTheReturnAddress : Prop :=
  ∀ (nnn : Addr12) (s : State),
    (s.sp.toNat = 16 → exec (.call nnn) s = .next { s with run := .halted, fault := some .stackOverflow }) ∧
    (∀ j : Nibble, s.sp.toNat = j.toNat →
      ∃ t, exec (.call nnn) s = .next t ∧ t.stack[j.toNat]'j.isLt = s.pc + 2#16 ∧
        (∀ k : Nibble, k ≠ j → t.stack[k.toNat]'k.isLt = s.stack[k.toNat]'k.isLt) ∧
        t.sp.toNat = j.toNat + 1 ∧ t.pc.toNat = nnn.toNat ∧ Frame [] [.sp, .stack] s t ∧ MemKept s t)

/-- The model's own choice (assumption log 8), where R26 says that no run comes: an `SP` above 16 names no stack entry, and
00EE and 2NNN stop the model. -/
def Obligations.StackPointerAboveTheDepthStops : Prop :=
  ∀ (nnn : Addr12) (s : State), 16 < s.sp.toNat →
    exec .ret s = .fault .stackEntryAbsent ∧ exec (.call nnn) s = .fault .stackEntryAbsent

/-- R111: 1NNN loads the zero-extended target, unchecked, and changes nothing else. -/
def Obligations.JumpLoadsTheTarget : Prop :=
  ∀ (nnn : Addr12) (s : State),
    ∃ t, exec (.jp nnn) s = .next t ∧ t.pc.toNat = nnn.toNat ∧ Frame [] [] s t ∧ MemKept s t

/-- R111, R82: a 1NNN at address NNN jumps to itself, and any number of further steps leaves the whole state unchanged. -/
def Obligations.JumpToItselfIsAFixedPoint : Prop :=
  ∀ (nnn : Addr12) (s : State) (n : Nat), s.run = .running → s.pc.toNat = nnn.toNat → nnn.toNat + 1 ≤ 0xFFF →
    wordAtPc s = 0x1000 + nnn.toNat → runEvents (List.replicate n .step) s = .next s

/-- R113 under the spec's decision D5: PC is NNN plus V0, a sum that is not reduced mod 4096. -/
def Obligations.JumpWithOffsetAddsV0 : Prop :=
  ∀ (nnn : Addr12) (s : State),
    ∃ t, exec (.jpOff nnn) s = .next t ∧ t.pc.toNat = nnn.toNat + (s.readV 0x0#4).toNat ∧ Frame [] [] s t ∧ MemKept s t

/-- R114, R115, R116, R117: a skip adds 4 to PC when its condition holds and 2 when it does not, and changes nothing else. The four
encodings are stated with it: families 3, 4, and 5 and 9 with a low nibble of 0 and no other. -/
def Obligations.SkipsCompareRegisters : Prop :=
  (∀ op : OpWord,
    (op.family = 0x3#4 → decode op = some (.seImm op.x op.nn)) ∧
    (op.family = 0x4#4 → decode op = some (.sneImm op.x op.nn)) ∧
    (op.family = 0x5#4 → decode op = if op.n = 0x0#4 then some (.seReg op.x op.y) else none) ∧
    (op.family = 0x9#4 → decode op = if op.n = 0x0#4 then some (.sneReg op.x op.y) else none)) ∧
  ∀ (x y : Nibble) (nn : Byte) (s : State),
    (∃ t, exec (.seImm x nn) s = .next t ∧ t.pc = (if s.readV x = nn then s.pc + 4#16 else s.pc + 2#16) ∧
      Frame [] [] s t ∧ MemKept s t) ∧
    (∃ t, exec (.sneImm x nn) s = .next t ∧ t.pc = (if s.readV x ≠ nn then s.pc + 4#16 else s.pc + 2#16) ∧
      Frame [] [] s t ∧ MemKept s t) ∧
    (∃ t, exec (.seReg x y) s = .next t ∧ t.pc = (if s.readV x = s.readV y then s.pc + 4#16 else s.pc + 2#16) ∧
      Frame [] [] s t ∧ MemKept s t) ∧
    (∃ t, exec (.sneReg x y) s = .next t ∧ t.pc = (if s.readV x ≠ s.readV y then s.pc + 4#16 else s.pc + 2#16) ∧
      Frame [] [] s t ∧ MemKept s t)

/-- DOC1 §8 (S6 of spec/95_test_vectors.md), R110, R112: a 00EE right after a 2NNN goes to the instruction after the call,
and only the freed stack slot tells that it happened: every other entry, below and above it, is as before. -/
def Obligations.ReturnAfterCallResumes : Prop :=
  ∀ (nnn : Addr12) (s : State), s.sp.toNat < 16 →
    ∃ t u, exec (.call nnn) s = .next t ∧ exec .ret t = .next u ∧ u.pc = s.pc + 2#16 ∧
      Frame [] [.stack] s u ∧ MemKept s u ∧
      ∀ k : Nibble, k.toNat ≠ s.sp.toNat → u.stack[k.toNat]'k.isLt = s.stack[k.toNat]'k.isLt

/-! ## ALU (spec/42_alu.md) -/

/-- R120, R122: 6XNN loads the immediate and 8XY0 the other register; with their encodings. -/
def Obligations.LoadImmediateAndCopy : Prop :=
  (∀ op : OpWord,
    (op.family = 0x6#4 → decode op = some (.ldImm op.x op.nn)) ∧
    (op.family = 0x8#4 → op.n = 0x0#4 → decode op = some (.ldReg op.x op.y))) ∧
  ∀ (x y : Nibble) (nn : Byte) (s : State),
    (∃ t, exec (.ldImm x nn) s = .next t ∧ t.readV x = nn ∧ t.pc = s.pc + 2#16 ∧ Frame [x] [] s t ∧ MemKept s t) ∧
    (∃ t, exec (.ldReg x y) s = .next t ∧ t.readV x = s.readV y ∧ t.pc = s.pc + 2#16 ∧ Frame [x] [] s t ∧
      MemKept s t)

/-- R121: 7XNN adds mod 256, and VF changes only where it is the destination; with its encoding. -/
def Obligations.AddImmediateWrapsWithoutFlag : Prop :=
  (∀ op : OpWord, op.family = 0x7#4 → decode op = some (.addImm op.x op.nn)) ∧
  ∀ (x : Nibble) (nn : Byte) (s : State),
    ∃ t, exec (.addImm x nn) s = .next t ∧ (t.readV x).toNat = ((s.readV x).toNat + nn.toNat) % 256 ∧
      t.pc = s.pc + 2#16 ∧ Frame [x] [] s t ∧ MemKept s t

/-- R123, R124, R125: OR, AND and XOR bit by bit; that VF is not written as a flag is the spec's decision D8. -/
def Obligations.LogicWorksBitwiseWithoutFlag : Prop :=
  ∀ (x y : Nibble) (s : State),
    (∃ t, exec (.orReg x y) s = .next t ∧
      (∀ j, (t.readV x).getLsbD j = ((s.readV x).getLsbD j || (s.readV y).getLsbD j)) ∧
      t.pc = s.pc + 2#16 ∧ Frame [x] [] s t ∧ MemKept s t) ∧
    (∃ t, exec (.andReg x y) s = .next t ∧
      (∀ j, (t.readV x).getLsbD j = ((s.readV x).getLsbD j && (s.readV y).getLsbD j)) ∧
      t.pc = s.pc + 2#16 ∧ Frame [x] [] s t ∧ MemKept s t) ∧
    (∃ t, exec (.xorReg x y) s = .next t ∧
      (∀ j, (t.readV x).getLsbD j = ((s.readV x).getLsbD j ^^ (s.readV y).getLsbD j)) ∧
      t.pc = s.pc + 2#16 ∧ Frame [x] [] s t ∧ MemKept s t)

/-- R126: 8XY4 gives the sum mod 256 and VF the carry; with X = 15 the sum is lost and VF is the carry, because the flag is
written after the result; with its encoding. -/
def Obligations.AddSetsTheCarry : Prop :=
  (∀ op : OpWord, op.family = 0x8#4 → op.n = 0x4#4 → decode op = some (.addReg op.x op.y)) ∧
  ∀ (x y : Nibble) (s : State),
    ∃ t, exec (.addReg x y) s = .next t ∧
      (x ≠ 0xF#4 → (t.readV x).toNat = ((s.readV x).toNat + (s.readV y).toNat) % 256) ∧
      (t.readV 0xF#4).toNat = (if (s.readV x).toNat + (s.readV y).toNat > 255 then 1 else 0) ∧
      t.pc = s.pc + 2#16 ∧ Frame [x, 0xF#4] [] s t ∧ MemKept s t

/-- R127, R129: 8XY5 and 8XY7 give the difference mod 256 and VF the complement of the borrow; with X = 15 the difference is
lost and VF is the flag; with their encodings. -/
def Obligations.SubtractSetsNotBorrow : Prop :=
  (∀ op : OpWord, op.family = 0x8#4 →
    (op.n = 0x5#4 → decode op = some (.subReg op.x op.y)) ∧ (op.n = 0x7#4 → decode op = some (.subn op.x op.y))) ∧
  ∀ (x y : Nibble) (s : State),
    (∃ t, exec (.subReg x y) s = .next t ∧
      (x ≠ 0xF#4 → (t.readV x).toNat = ((s.readV x).toNat + 256 - (s.readV y).toNat) % 256) ∧
      (t.readV 0xF#4).toNat = (if (s.readV x).toNat ≥ (s.readV y).toNat then 1 else 0) ∧
      t.pc = s.pc + 2#16 ∧ Frame [x, 0xF#4] [] s t ∧ MemKept s t) ∧
    (∃ t, exec (.subn x y) s = .next t ∧
      (x ≠ 0xF#4 → (t.readV x).toNat = ((s.readV y).toNat + 256 - (s.readV x).toNat) % 256) ∧
      (t.readV 0xF#4).toNat = (if (s.readV y).toNat ≥ (s.readV x).toNat then 1 else 0) ∧
      t.pc = s.pc + 2#16 ∧ Frame [x, 0xF#4] [] s t ∧ MemKept s t)

/-- R128, R130, R134 under the spec's decision D4: VX is shifted by one place, zero filled, whatever Y is; VF is the bit shifted
out, written after the result. -/
def Obligations.ShiftsMoveOnePlace : Prop :=
  ∀ (x y : Nibble) (s : State),
    (∃ t, exec (.shr x y) s = .next t ∧ (x ≠ 0xF#4 → (t.readV x).toNat = (s.readV x).toNat / 2) ∧
      (t.readV 0xF#4).toNat = (s.readV x).toNat % 2 ∧
      t.pc = s.pc + 2#16 ∧ Frame [x, 0xF#4] [] s t ∧ MemKept s t) ∧
    (∃ t, exec (.shl x y) s = .next t ∧ (x ≠ 0xF#4 → (t.readV x).toNat = 2 * (s.readV x).toNat % 256) ∧
      (t.readV 0xF#4).toNat = (if (s.readV x).toNat ≥ 128 then 1 else 0) ∧
      t.pc = s.pc + 2#16 ∧ Frame [x, 0xF#4] [] s t ∧ MemKept s t)

/-- R132, R34: VX is a free byte AND NN, so every bit that is 0 in NN is 0; the byte and the next `RNG` are the free value of
assumption log 4, and the statement holds whatever they are. -/
def Obligations.RandomByteIsMasked : Prop :=
  ∀ (x : Nibble) (nn : Byte) (s : State),
    ∃ t, exec (.rnd x nn) s = .next t ∧ t.readV x = (Config.rngNext s.rng).1 &&& nn ∧
      (∀ j, nn.getLsbD j = false → (t.readV x).getLsbD j = false) ∧ t.rng = (Config.rngNext s.rng).2 ∧
      t.pc = s.pc + 2#16 ∧ Frame [x] [.rng] s t ∧ MemKept s t

/-- R113, R128, R130, R144, R145: what each policy constant's other alternative gives. The alternatives are the spec's (R6); the
machine runs the decided ones (assumption log 1). -/
def Obligations.PolicyAlternatives : Prop :=
  ∀ (x y : Nibble) (nnn : Addr12) (s : State),
    (∃ t, shiftRight .vyIntoVx x y s = .next t ∧ (x ≠ 0xF#4 → (t.readV x).toNat = (s.readV y).toNat / 2) ∧
      (t.readV 0xF#4).toNat = (s.readV y).toNat % 2 ∧ t.pc = s.pc + 2#16 ∧ Frame [x, 0xF#4] [] s t ∧ MemKept s t) ∧
    (∃ t, shiftLeft .vyIntoVx x y s = .next t ∧ (x ≠ 0xF#4 → (t.readV x).toNat = 2 * (s.readV y).toNat % 256) ∧
      (t.readV 0xF#4).toNat = (s.readV y).toNat / 128 ∧ t.pc = s.pc + 2#16 ∧ Frame [x, 0xF#4] [] s t ∧ MemKept s t) ∧
    (∀ k : Nibble, k.toNat = nnn.toNat / 256 →
      ∃ t, jumpOffset .vx nnn s = .next t ∧ t.pc.toNat = nnn.toNat + (s.readV k).toNat ∧ Frame [] [] s t ∧ MemKept s t) ∧
    (s.i.toNat + x.toNat ≤ 0xFFF → 0x200 ≤ s.i.toNat →
      ∃ t u, storeBlock .iUnchanged x s = .next t ∧ storeBlock .iIncrement x s = .next u ∧ t.i = s.i ∧
        u = { t with i := u.i } ∧ u.i.toNat = (s.i.toNat + x.toNat + 1) % 65536) ∧
    (s.i.toNat + x.toNat ≤ 0xFFF →
      ∃ t u, readBlock .iUnchanged x s = .next t ∧ readBlock .iIncrement x s = .next u ∧ t.i = s.i ∧
        u = { t with i := u.i } ∧ u.i.toNat = (s.i.toNat + x.toNat + 1) % 65536)

/-! ## Index register and memory (spec/43_index_memory.md, spec/20_memory.md) -/

/-- R140: ANNN loads the zero-extended address and checks nothing; with its encoding. -/
def Obligations.LoadIndexZeroExtends : Prop :=
  (∀ op : OpWord, op.family = 0xA#4 → decode op = some (.ldI op.nnn)) ∧
  ∀ (nnn : Addr12) (s : State),
    ∃ t, exec (.ldI nnn) s = .next t ∧ t.i.toNat = nnn.toNat ∧ t.pc = s.pc + 2#16 ∧ Frame [] [.i] s t ∧ MemKept s t

/-- R141: I wraps at 16 bits and VF is not written; both are the spec's decision D7. -/
def Obligations.AddToIndexWrapsAt16Bits : Prop :=
  ∀ (x : Nibble) (s : State),
    ∃ t, exec (.addI x) s = .next t ∧ t.i.toNat = (s.i.toNat + (s.readV x).toNat) % 65536 ∧
      t.pc = s.pc + 2#16 ∧ Frame [] [.i] s t ∧ MemKept s t

/-- R142: I is the address of the glyph of VX's low nibble; the nibble and the base are the spec's decisions D20 and D2. -/
def Obligations.FontAddressOfTheLowNibble : Prop :=
  ∀ (x : Nibble) (s : State),
    ∃ t, exec (.ldFont x) s = .next t ∧ t.i.toNat = 0x050 + 5 * ((s.readV x).toNat % 16) ∧
      t.pc = s.pc + 2#16 ∧ Frame [] [.i] s t ∧ MemKept s t

/-- R143: FX33 stores hundreds, tens and ones at I, I + 1, I + 2 and nothing else; past 0xFFF it faults, else below 0x200 it
faults, with no other effect. The digits' order and the two faults are the spec's decisions D21, D12 and D13. -/
def Obligations.BcdStoresThreeDigits : Prop :=
  ∀ (x : Nibble) (s : State),
    (s.i.toNat + 2 > 0xFFF →
      exec (.storeBcd x) s = .next { s with run := .halted, fault := some .memoryOutOfBounds }) ∧
    (s.i.toNat + 2 ≤ 0xFFF → s.i.toNat < 0x200 →
      exec (.storeBcd x) s = .next { s with run := .halted, fault := some .writeProtected }) ∧
    (s.i.toNat + 2 ≤ 0xFFF → 0x200 ≤ s.i.toNat →
      ∃ t, exec (.storeBcd x) s = .next t ∧
        (Memory.get t.mem s.i.toNat).toNat = (s.readV x).toNat / 100 ∧
        (Memory.get t.mem (s.i.toNat + 1)).toNat = (s.readV x).toNat / 10 % 10 ∧
        (Memory.get t.mem (s.i.toNat + 2)).toNat = (s.readV x).toNat % 10 ∧
        t.pc = s.pc + 2#16 ∧ Frame [] [] s t ∧ MemKeptOutside s.i.toNat 3 s t)

/-- R144: FX55 stores V0 to VX at I and up, I unchanged, all or nothing. The faults and the unchanged I are the spec's
decisions D12, D13 and D6. -/
def Obligations.StoreRegistersWritesTheBlock : Prop :=
  ∀ (x : Nibble) (s : State),
    (s.i.toNat + x.toNat > 0xFFF →
      exec (.storeRegs x) s = .next { s with run := .halted, fault := some .memoryOutOfBounds }) ∧
    (s.i.toNat + x.toNat ≤ 0xFFF → s.i.toNat < 0x200 →
      exec (.storeRegs x) s = .next { s with run := .halted, fault := some .writeProtected }) ∧
    (s.i.toNat + x.toNat ≤ 0xFFF → 0x200 ≤ s.i.toNat →
      ∃ t, exec (.storeRegs x) s = .next t ∧
        (∀ k : Nibble, k.toNat ≤ x.toNat → Memory.get t.mem (s.i.toNat + k.toNat) = s.readV k) ∧
        t.pc = s.pc + 2#16 ∧ Frame [] [] s t ∧ MemKeptOutside s.i.toNat (x.toNat + 1) s t)

/-- R145: FX65 loads V0 to VX from I and up, below 0x200 too, I unchanged; past 0xFFF it faults and no register changes. The fault
and the unchanged I are the spec's decisions D12 and D6. -/
def Obligations.LoadRegistersReadsTheBlock : Prop :=
  ∀ (x : Nibble) (s : State),
    (s.i.toNat + x.toNat > 0xFFF →
      exec (.loadRegs x) s = .next { s with run := .halted, fault := some .memoryOutOfBounds }) ∧
    (s.i.toNat + x.toNat ≤ 0xFFF →
      ∃ t, exec (.loadRegs x) s = .next t ∧
        (∀ k : Nibble, k.toNat ≤ x.toNat → t.readV k = Memory.get s.mem (s.i.toNat + k.toNat)) ∧
        t.pc = s.pc + 2#16 ∧ Frame (firstRegs (x.toNat + 1)) [] s t ∧ MemKept s t)

/-- R144, R145: FX65 undoes FX55 whatever the V registers hold in between (`w`), register by register. It reads the same block
because FX55 leaves I unchanged, which is the spec's decision D6 (assumption log 1). -/
def Obligations.StoreThenLoadRestoresRegisters : Prop :=
  ∀ (x : Nibble) (s : State) (w : Vector Byte 16), s.i.toNat + x.toNat ≤ 0xFFF → 0x200 ≤ s.i.toNat →
    ∃ t u, exec (.storeRegs x) s = .next t ∧ exec (.loadRegs x) { t with v := w } = .next u ∧
      ∀ k : Nibble, k.toNat ≤ x.toNat → u.readV k = s.readV k

/-- R63, R53: the two registers that FX55 stores first are the instruction fetched at I by the very next step, V0 as the high
byte. -/
def Obligations.StoredBytesAreFetched : Prop :=
  ∀ (x : Nibble) (s : State) (op : OpWord) (i : Instr), s.run = .running → 1 ≤ x.toNat →
    s.i.toNat + x.toNat ≤ 0xFFF → 0x200 ≤ s.i.toNat →
    op.toNat = 256 * (s.readV 0x0#4).toNat + (s.readV 0x1#4).toNat → decode op = some i →
    ∃ t, exec (.storeRegs x) s = .next t ∧ step { t with pc := s.i } = exec i { t with pc := s.i }

/-- R51, R58: whatever the state, no step changes a byte below the ROM load address. -/
def Obligations.BytesBelowRomBaseAreKept : Prop :=
  ∀ (s t : State) (a : Nat), step s = .next t → a < 0x200 → Memory.get t.mem a = Memory.get s.mem a

/-! ## Display (spec/44_display.md, spec/60_exceptions.md R189) -/

/-- R150, R189: ReadDisplay returns the 2048 pixels as they are, in every state, and changes no state; after 00E0, whose only
encoding is 0x00E0, every pixel is off, and so is every pixel ReadDisplay returns. -/
def Obligations.ClearedDisplayReadsAllOff : Prop :=
  (∀ op : OpWord, decode op = some .cls ↔ op.toNat = 0x00E0) ∧
  (∀ s : State, ∃ g, handle .readDisplay s = .next (s, .grid g) ∧
    ∀ x y, FrameBuffer.get g x y = FrameBuffer.get s.fb x y) ∧
  ∀ s : State,
    ∃ t g, exec .cls s = .next t ∧ (∀ x y, FrameBuffer.get t.fb x y = false) ∧
      handle .readDisplay t = .next (t, .grid g) ∧ (∀ x y, FrameBuffer.get g x y = false) ∧
      t.pc = s.pc + 2#16 ∧ Frame [] [.fb] s t ∧ MemKept s t

/-- R151: DXYN inverts exactly the pixels under a set sprite bit, each wrapped on its own, and VF says whether one of them was on;
N = 0 draws nothing and cannot fault. The sprite's layout and the fault are the spec's decisions D23 and D12. -/
def Obligations.DrawXorsTheSprite : Prop :=
  ∀ (x y n : Nibble) (s : State),
    (0 < n.toNat → s.i.toNat + n.toNat - 1 > 0xFFF →
      exec (.drw x y n) s = .next { s with run := .halted, fault := some .memoryOutOfBounds }) ∧
    ((n.toNat = 0 ∨ s.i.toNat + n.toNat - 1 ≤ 0xFFF) →
      ∃ t, exec (.drw x y n) s = .next t ∧
        (∀ px py, FrameBuffer.get t.fb px py =
          (FrameBuffer.get s.fb px py ^^
            spriteBit s.mem s.i.toNat ((s.readV x).toNat % 64) ((s.readV y).toNat % 32) n.toNat px py)) ∧
        ((∃ px py, spriteBit s.mem s.i.toNat ((s.readV x).toNat % 64) ((s.readV y).toNat % 32) n.toNat px py = true ∧
          FrameBuffer.get s.fb px py = true) → t.readV 0xF#4 = 1#8) ∧
        ((∀ px py, spriteBit s.mem s.i.toNat ((s.readV x).toNat % 64) ((s.readV y).toNat % 32) n.toNat px py = true →
          FrameBuffer.get s.fb px py = false) → t.readV 0xF#4 = 0#8) ∧
        t.pc = s.pc + 2#16 ∧ Frame [0xF#4] [.fb] s t ∧ MemKept s t)

/-- R152 (a) and (b): drawing the same sprite twice restores the screen; where the screen was clear under a sprite with a set
bit, the first draw gives VF = 0 and the second VF = 1. X or Y equal to 15 is left out by the rule itself. -/
def Obligations.DrawTwiceRestoresTheScreen : Prop :=
  ∀ (x y n : Nibble) (s : State), x ≠ 0xF#4 → y ≠ 0xF#4 → (n.toNat = 0 ∨ s.i.toNat + n.toNat - 1 ≤ 0xFFF) →
    ∃ t u, exec (.drw x y n) s = .next t ∧ exec (.drw x y n) t = .next u ∧ u.fb = s.fb ∧
      ((∃ px py, spriteBit s.mem s.i.toNat ((s.readV x).toNat % 64) ((s.readV y).toNat % 32) n.toNat px py = true) →
        (∀ px py, spriteBit s.mem s.i.toNat ((s.readV x).toNat % 64) ((s.readV y).toNat % 32) n.toNat px py = true →
          FrameBuffer.get s.fb px py = false) →
        t.readV 0xF#4 = 0#8 ∧ u.readV 0xF#4 = 1#8)

/-! ## Keypad and timers (spec/45_keypad_timers.md, spec/60_exceptions.md) -/

/-- R160, R161: the key skips test the level of the key that VX's low nibble (the spec's decision D19) names. -/
def Obligations.KeySkipsTestTheLatch : Prop :=
  ∀ (x k : Nibble) (s : State), k.toNat = (s.readV x).toNat % 16 →
    (∃ t, exec (.skp x) s = .next t ∧ t.pc = (if keyAt s.key k = true then s.pc + 4#16 else s.pc + 2#16) ∧
      Frame [] [] s t ∧ MemKept s t) ∧
    (∃ t, exec (.sknp x) s = .next t ∧ t.pc = (if keyAt s.key k = false then s.pc + 4#16 else s.pc + 2#16) ∧
      Frame [] [] s t ∧ MemKept s t)

/-- R162 (the spec's decision D17): FX0A enters the wait with X and the keys as they are, PC already past it, and writes no V
register. -/
def Obligations.WaitForKeyEntersTheWait : Prop :=
  ∀ (x : Nibble) (s : State),
    ∃ t, exec (.waitKey x) s = .next t ∧ t.run = .waitingForKey ∧ t.waitx = x ∧ t.kprev = s.key ∧
      t.pc = s.pc + 2#16 ∧ Frame [] [.run, .waitx, .kprev] s t ∧ MemKept s t

/-- R163, R164, R165: FX07 reads DT, FX15 writes DT, FX18 writes ST; the roles are the spec's decision D22. -/
def Obligations.TimerTransfers : Prop :=
  ∀ (x : Nibble) (s : State),
    (∃ t, exec (.ldFromDt x) s = .next t ∧ t.readV x = s.dt ∧ t.pc = s.pc + 2#16 ∧ Frame [x] [] s t ∧ MemKept s t) ∧
    (∃ t, exec (.setDt x) s = .next t ∧ t.dt = s.readV x ∧ t.pc = s.pc + 2#16 ∧ Frame [] [.dt] s t ∧ MemKept s t) ∧
    (∃ t, exec (.setSt x) s = .next t ∧ t.st = s.readV x ∧ t.pc = s.pc + 2#16 ∧ Frame [] [.st] s t ∧ MemKept s t)

/-- R184, R185: `n` ticks take `n` off each timer and stop at zero, in every run state (the spec's decision D15), and change
nothing else. -/
def Obligations.TicksCountDownToZero : Prop :=
  ∀ (n : Nat) (s : State),
    ∃ t, runEvents (List.replicate n .tickTimers) s = .next t ∧ t.dt.toNat = s.dt.toNat - n ∧
      t.st.toNat = s.st.toNat - n ∧ t.pc = s.pc ∧ Frame [] [.dt, .st] s t ∧ MemKept s t

/-- R187: SetKeyState changes one key of the latch and nothing else, not KPREV, RUN or V. -/
def Obligations.SetKeyStateChangesOneKey : Prop :=
  ∀ (k : Nibble) (p : Bool) (s : State),
    ∃ t, handle (.setKeyState k p) s = .next (t, .none) ∧ keyAt t.key k = p ∧
      (∀ j, j ≠ k → keyAt t.key j = keyAt s.key j) ∧ t = { s with key := t.key }

/-! ## Reset, load, and the events together (spec/70_reset_and_hazards.md, spec/10_state.md) -/

/-- R204: a ROM of more than 3584 bytes is refused with no change at all; any other is copied verbatim to 0x200 and up, and
nothing else changes. -/
def Obligations.LoadRomIsAllOrNothing : Prop :=
  ∀ (bytes : List Byte) (s : State),
    (bytes.length > 3584 → handle (.loadRom bytes) s = .next (s, .loaded .romTooLarge)) ∧
    (bytes.length ≤ 3584 →
      ∃ t, handle (.loadRom bytes) s = .next (t, .loaded .ok) ∧
        (∀ (j : Nat) (h : j < bytes.length), Memory.get t.mem (0x200 + j) = bytes[j]) ∧
        MemKeptOutside 0x200 bytes.length s t ∧ t = { s with mem := t.mem })

/-- R98, R182, R184, R187, R189, R205: the events other than Reset and Step change neither RUN nor FAULT, and leave V, I, PC, the
stack, the framebuffer and the wait state alone. R34, R41: SeedRng gives RNG the seeded state, whatever the free value of
assumption log 4 is, and changes nothing else. -/
def Obligations.HostEventsLeaveTheRunAlone : Prop :=
  (∀ (seed : Nat) (s : State),
    handle (.seedRng seed) s = .next ({ s with rng := Config.rngSeed seed }, .none)) ∧
  ∀ (e : Event) (s t : State) (r : Reply), (∀ rng, e ≠ .reset rng) → e ≠ .step → handle e s = .next (t, r) →
    t.pc = s.pc ∧ Frame [] [.dt, .st, .key, .rng] s t ∧ ∀ a, a < 0x200 → Memory.get t.mem a = Memory.get s.mem a

/-- R40, R200: the state after Reset, from any state. The cleared keys, wait state and fault latch are the spec's decision D26, the
font's base and bytes D2 and D3; RNG is the free value the event brings (assumption log 6). That an address above 0xFFF, where
no byte exists, reads as 0 is the model's own choice (assumption log 10). -/
def Obligations.ResetLeavesTheResetState : Prop :=
  ∀ (rng : Nat) (s : State),
    ∃ t, handle (.reset rng) s = .next (t, .none) ∧ (∀ k, t.readV k = 0#8) ∧ t.i = 0#16 ∧ t.pc = 0x200#16 ∧
      t.sp = 0#8 ∧ (∀ j : Nibble, t.stack[j.toNat]'j.isLt = 0#16) ∧ t.dt = 0#8 ∧ t.st = 0#8 ∧
      t.run = .running ∧ t.fault = none ∧ t.waitx = 0#4 ∧ (∀ k, keyAt t.key k = false ∧ keyAt t.kprev k = false) ∧
      (∀ x y, FrameBuffer.get t.fb x y = false) ∧
      (∀ (d : Fin 16) (r : Fin 5), Memory.get t.mem (0x050 + 5 * d.val + r.val) = (glyphs.getD d.val []).getD r.val 0) ∧
      (∀ a, a < 0x050 ∨ 0x0A0 ≤ a → Memory.get t.mem a = 0#8)

/-- The reset state satisfies the invariant (R40). -/
def Obligations.ResetSatisfiesTheInvariant : Prop := Invariant State.reset

/-- R24, R26, R33, R51, R58, R110: every step, from any state that satisfies it, keeps the invariant: memory in canonical form and
unchanged below 0x200, the stack bound, return addresses and PC within the values the spec derives, the fault latch set exactly
when halted. -/
def Obligations.StepKeepsTheInvariant : Prop :=
  ∀ s t : State, Invariant s → step s = .next t → Invariant t

/-- R41: from any state that satisfies the invariant every event completes and keeps it; in particular the model never stops
there. -/
def Obligations.EveryEventCompletesAndKeepsTheInvariant : Prop :=
  ∀ (e : Event) (s : State), Invariant s → ∃ t r, handle e s = .next (t, r) ∧ Invariant t

/-- R41, R201, R206: any sequence of events from reset, program loads among them, runs to its end in a state that satisfies the
invariant. -/
def Obligations.EveryRunFromResetCompletes : Prop :=
  ∀ es : List Event, ∃ t, runEvents es State.reset = .next t ∧ Invariant t

/-! ## The whole machine -/

/-- R178, R13 (the spec's decision D14): a step that halts the core changes RUN and FAULT and nothing else, PC included. -/
def Obligations.FaultsArePrecise : Prop :=
  ∀ s t : State, s.run ≠ .halted → step s = .next t → t.run = .halted →
    ∃ f, t = { s with run := .halted, fault := some f }

/-- R96, R170 to R176: an instruction halts the core exactly on the listed conditions, with the listed fault. The two memory
faults are the spec's decisions D12 and D13, and `SP ≤ 16` is R26's. -/
def Obligations.ExecHaltsOnlyOnTheListedConditions : Prop :=
  ∀ (i : Instr) (s : State), s.run = .running → s.sp.toNat ≤ 16 →
    (∀ f, raisedBy i s = some f → exec i s = .next { s with run := .halted, fault := some f }) ∧
    (raisedBy i s = none → ∃ t, exec i s = .next t ∧ t.run ≠ .halted ∧ t.fault = s.fault)

/-- R98, R99, R179 (the spec's decision D15): in HALTED a step changes nothing, and no event but Reset leaves HALTED or touches the
latched fault. -/
def Obligations.OnlyResetLeavesHalted : Prop :=
  ∀ (e : Event) (s t : State) (r : Reply), s.run = .halted → (∀ rng, e ≠ .reset rng) → handle e s = .next (t, r) →
    t.run = .halted ∧ t.fault = s.fault ∧ (e = .step → t = s)

/-- R98: the run states a step can lead to, and from where: only an FX0A enters the wait, and the wait never faults. -/
def Obligations.RunStateTransitions : Prop :=
  ∀ s t : State, step s = .next t →
    (s.run = .running → t.run = .waitingForKey →
      ∃ (op : OpWord) (x : Nibble), op.toNat = wordAtPc s ∧ decode op = some (.waitKey x)) ∧
    (s.run = .waitingForKey → t.run = .running ∨ t.run = .waitingForKey) ∧
    (s.run = .waitingForKey → (t.run = .running ↔ ∃ k, keyAt s.key k = true ∧ keyAt s.kprev k = false)) ∧
    (s.run = .halted → t.run = .halted)

/-- R93, the frame rule: which instruction may change which piece of state. RUN and FAULT change otherwise only by a fault, and RNG,
which R93 does not name, only by CXNN (R34). That FX55 and FX65 do not change I is the spec's decision D6 (assumption log 1):
R93 lists them under the other policy. -/
def Obligations.OnlyTheNamedInstructionsChangeEachPart : Prop :=
  ∀ (i : Instr) (s t : State), exec i s = .next t →
    t.key = s.key ∧
    (t.dt ≠ s.dt → ∃ x, i = .setDt x) ∧
    (t.st ≠ s.st → ∃ x, i = .setSt x) ∧
    (t.fb ≠ s.fb → i = .cls ∨ ∃ x y n, i = .drw x y n) ∧
    ((∃ a, Memory.get t.mem a ≠ Memory.get s.mem a) → (∃ x, i = .storeBcd x) ∨ ∃ x, i = .storeRegs x) ∧
    (t.i ≠ s.i → (∃ nnn, i = .ldI nnn) ∨ (∃ x, i = .addI x) ∨ ∃ x, i = .ldFont x) ∧
    (t.sp ≠ s.sp ∨ t.stack ≠ s.stack → i = .ret ∨ ∃ nnn, i = .call nnn) ∧
    (t.waitx ≠ s.waitx ∨ t.kprev ≠ s.kprev → ∃ x, i = .waitKey x) ∧
    (t.run ≠ s.run → (∃ x, i = .waitKey x) ∨ ∃ f, t = { s with run := .halted, fault := some f }) ∧
    (t.fault ≠ s.fault → ∃ f, t = { s with run := .halted, fault := some f }) ∧
    (t.rng ≠ s.rng → ∃ x nn, i = .rnd x nn)

/-- R21, R22: an instruction writes no V register but its destination, the flag register where it has a flag outcome, and V0 to VX
for FX65. -/
def Obligations.OnlyTheNamedRegistersAreWritten : Prop :=
  ∀ (i : Instr) (s t : State) (k : Nibble), exec i s = .next t → t.readV k ≠ s.readV k → mayWriteV i k = true

/-- R22: the flag that 8XY4, 8XY5, 8XY6, 8XY7, 8XYE or a completed DXYN leaves in VF is 0x00 or 0x01, whatever VF held. -/
def Obligations.TheFlagIsZeroOrOne : Prop :=
  ∀ (x y n : Nibble) (i : Instr) (s t : State),
    i ∈ [Instr.addReg x y, .subReg x y, .shr x y, .subn x y, .shl x y, .drw x y n] → s.run = .running →
    exec i s = .next t → t.run = .running → t.readV 0xF#4 = 0#8 ∨ t.readV 0xF#4 = 1#8

/-- R97, R34: the random source is read by CXNN alone: for every other instruction another generator state gives the same answer,
but for the generator state itself. -/
def Obligations.RandomStateMattersOnlyToRandom : Prop :=
  ∀ (i : Instr) (s t : State) (r : Nat), (∀ x nn, i ≠ .rnd x nn) → exec i s = .next t →
    exec i { s with rng := r } = .next { t with rng := r }
end

