-- ==== Sys2Proof/Laws/Decode.lean ====
section
/-! SUPPORT. The fields of a packed instruction value (R71, R73), an instruction value as its fields packed again, and the
two bytes of one (R52). -/

namespace Sys2Proof

theorem family_packNNN (f : Nibble) (a : Addr12) : OpWord.family (packNNN f a) = f := by
  apply BitVec.eq_of_getLsbD_eq; intro j hj
  simp only [OpWord.family, packNNN, BitVec.getLsbD_extractLsb', BitVec.getLsbD_append]
  simp [hj]

theorem nnn_packNNN (f : Nibble) (a : Addr12) : OpWord.nnn (packNNN f a) = a := by
  apply BitVec.eq_of_getLsbD_eq; intro j hj
  simp only [OpWord.nnn, packNNN, BitVec.getLsbD_extractLsb', BitVec.getLsbD_append]
  simp [hj]

theorem family_packXNN (f x : Nibble) (nn : Byte) : OpWord.family (packXNN f x nn) = f := by
  apply BitVec.eq_of_getLsbD_eq; intro j hj
  simp only [OpWord.family, packXNN, BitVec.getLsbD_extractLsb', BitVec.getLsbD_append]
  simp [hj, show ¬ 12 + j < 8 by omega, show ¬ 12 + j - 8 < 4 by omega, show 12 + j - 8 - 4 = j by omega]

theorem x_packXNN (f x : Nibble) (nn : Byte) : OpWord.x (packXNN f x nn) = x := by
  apply BitVec.eq_of_getLsbD_eq; intro j hj
  simp only [OpWord.x, packXNN, BitVec.getLsbD_extractLsb', BitVec.getLsbD_append]
  simp [hj]

theorem nn_packXNN (f x : Nibble) (nn : Byte) : OpWord.nn (packXNN f x nn) = nn := by
  apply BitVec.eq_of_getLsbD_eq; intro j hj
  simp only [OpWord.nn, packXNN, BitVec.getLsbD_extractLsb', BitVec.getLsbD_append]
  simp [hj]

theorem family_packXYN (f x y n : Nibble) : OpWord.family (packXYN f x y n) = f := by
  apply BitVec.eq_of_getLsbD_eq; intro j hj
  simp only [OpWord.family, packXYN, BitVec.getLsbD_extractLsb', BitVec.getLsbD_append]
  simp [hj, show ¬ 12 + j < 4 by omega, show ¬ 12 + j - 4 < 4 by omega, show ¬ 12 + j - 4 - 4 < 4 by omega,
    show 12 + j - 4 - 4 - 4 = j by omega]

theorem x_packXYN (f x y n : Nibble) : OpWord.x (packXYN f x y n) = x := by
  apply BitVec.eq_of_getLsbD_eq; intro j hj
  simp only [OpWord.x, packXYN, BitVec.getLsbD_extractLsb', BitVec.getLsbD_append]
  simp [hj, show ¬ 8 + j < 4 by omega, show ¬ 8 + j - 4 < 4 by omega, show 8 + j - 4 - 4 = j by omega]

theorem y_packXYN (f x y n : Nibble) : OpWord.y (packXYN f x y n) = y := by
  apply BitVec.eq_of_getLsbD_eq; intro j hj
  simp only [OpWord.y, packXYN, BitVec.getLsbD_extractLsb', BitVec.getLsbD_append]
  simp [hj]

theorem n_packXYN (f x y n : Nibble) : OpWord.n (packXYN f x y n) = n := by
  apply BitVec.eq_of_getLsbD_eq; intro j hj
  simp only [OpWord.n, packXYN, BitVec.getLsbD_extractLsb', BitVec.getLsbD_append]
  simp [hj]

theorem pack_fields_NNN (op : OpWord) : packNNN (OpWord.family op) (OpWord.nnn op) = op := by
  apply BitVec.eq_of_getLsbD_eq; intro j hj
  simp only [OpWord.family, OpWord.nnn, packNNN, BitVec.getLsbD_extractLsb', BitVec.getLsbD_append]
  by_cases h : j < 12
  · simp [h]
  · simp [h, show j - 12 < 4 by omega, show 12 + (j - 12) = j by omega]

theorem pack_fields_XNN (op : OpWord) : packXNN (OpWord.family op) (OpWord.x op) (OpWord.nn op) = op := by
  apply BitVec.eq_of_getLsbD_eq; intro j hj
  simp only [OpWord.family, OpWord.x, OpWord.nn, packXNN, BitVec.getLsbD_extractLsb', BitVec.getLsbD_append]
  by_cases h : j < 8
  · simp [h]
  · by_cases h4 : j - 8 < 4
    · simp [h, h4, show 8 + (j - 8) = j by omega]
    · simp [h, h4, show j - 8 - 4 < 4 by omega, show 12 + (j - 8 - 4) = j by omega]

theorem pack_fields_XYN (op : OpWord) :
    packXYN (OpWord.family op) (OpWord.x op) (OpWord.y op) (OpWord.n op) = op := by
  apply BitVec.eq_of_getLsbD_eq; intro j hj
  simp only [OpWord.family, OpWord.x, OpWord.y, OpWord.n, packXYN, BitVec.getLsbD_extractLsb', BitVec.getLsbD_append]
  by_cases h : j < 4
  · simp [h]
  · by_cases h4 : j - 4 < 4
    · simp [h, h4, show 4 + (j - 4) = j by omega]
    · by_cases h8 : j - 4 - 4 < 4
      · simp [h, h4, h8, show 8 + (j - 4 - 4) = j by omega]
      · simp [h, h4, h8, show j - 4 - 4 - 4 < 4 by omega, show 12 + (j - 4 - 4 - 4) = j by omega]

/-- The mask of formats NNN, XNN and XYN keeps the family nibble alone (R74). -/
theorem and_mask_family (op : OpWord) : op &&& 0xF000#16 = packXNN (OpWord.family op) 0#4 0#8 := by
  apply BitVec.eq_of_getLsbD_eq; intro j hj
  simp only [BitVec.getLsbD_and, packXNN, BitVec.getLsbD_append, BitVec.getLsbD_extractLsb', OpWord.family]
  interval_cases j <;> simp

/-- The mask of format XYS keeps the family nibble and the low nibble (R74). -/
theorem and_mask_low_nibble (op : OpWord) : op &&& 0xF00F#16 = packXYN (OpWord.family op) 0#4 0#4 (OpWord.n op) := by
  apply BitVec.eq_of_getLsbD_eq; intro j hj
  simp only [BitVec.getLsbD_and, packXYN, BitVec.getLsbD_append, BitVec.getLsbD_extractLsb', OpWord.family, OpWord.n]
  interval_cases j <;> simp

/-- The mask of format XSS keeps the family nibble and the low byte (R74). -/
theorem and_mask_low_byte (op : OpWord) : op &&& 0xF0FF#16 = packXNN (OpWord.family op) 0#4 (OpWord.nn op) := by
  apply BitVec.eq_of_getLsbD_eq; intro j hj
  simp only [BitVec.getLsbD_and, packXNN, BitVec.getLsbD_append, BitVec.getLsbD_extractLsb', OpWord.family, OpWord.nn]
  interval_cases j <;> simp

/-- The two bytes of an instruction value assemble to it (R52). -/
theorem assemble_layOut (op : OpWord) : assemble (op.extractLsb' 8 8) (op.extractLsb' 0 8) = op := by
  apply BitVec.eq_of_getLsbD_eq; intro j hj
  simp only [assemble, BitVec.getLsbD_extractLsb', BitVec.getLsbD_append]
  by_cases h : j < 8
  · simp [h]
  · simp [h, show j - 8 < 8 by omega, show 8 + (j - 8) = j by omega]

/-- The number two bytes assemble to: the byte at the lower address is the high one (R52). -/
theorem toNat_assemble (hi lo : Byte) : (assemble hi lo).toNat = 256 * hi.toNat + lo.toNat := by
  have := lo.isLt
  simp only [assemble, BitVec.toNat_append, Nat.shiftLeft_eq]
  rw [Nat.mul_comm, ← Nat.two_pow_add_eq_or_of_lt (by omega)]

/-- Every value of a 4-bit field is one of sixteen. -/
theorem nibble_cases (f : Nibble) :
    f = 0x0#4 ∨ f = 0x1#4 ∨ f = 0x2#4 ∨ f = 0x3#4 ∨ f = 0x4#4 ∨ f = 0x5#4 ∨ f = 0x6#4 ∨ f = 0x7#4 ∨
    f = 0x8#4 ∨ f = 0x9#4 ∨ f = 0xA#4 ∨ f = 0xB#4 ∨ f = 0xC#4 ∨ f = 0xD#4 ∨ f = 0xE#4 ∨ f = 0xF#4 := by
  revert f; decide

end Sys2Proof
end

