-- ==== Sys2Proof/Laws/State.lean ====
section
/-! SUPPORT. Every setter of State against every field (what it writes, and that it leaves the others alone), so that no proof
unfolds a record update. -/

namespace Sys2Proof.Machine

variable (s : State)

@[simp] theorem State.setV_v (x : Vector Byte 16) : (s.setV x).v = x := rfl
@[simp] theorem State.setV_i (x : Vector Byte 16) : (s.setV x).i = s.i := rfl
@[simp] theorem State.setV_pc (x : Vector Byte 16) : (s.setV x).pc = s.pc := rfl
@[simp] theorem State.setV_sp (x : Vector Byte 16) : (s.setV x).sp = s.sp := rfl
@[simp] theorem State.setV_stack (x : Vector Byte 16) : (s.setV x).stack = s.stack := rfl
@[simp] theorem State.setV_dt (x : Vector Byte 16) : (s.setV x).dt = s.dt := rfl
@[simp] theorem State.setV_st (x : Vector Byte 16) : (s.setV x).st = s.st := rfl
@[simp] theorem State.setV_run (x : Vector Byte 16) : (s.setV x).run = s.run := rfl
@[simp] theorem State.setV_waitx (x : Vector Byte 16) : (s.setV x).waitx = s.waitx := rfl
@[simp] theorem State.setV_kprev (x : Vector Byte 16) : (s.setV x).kprev = s.kprev := rfl
@[simp] theorem State.setV_fault (x : Vector Byte 16) : (s.setV x).fault = s.fault := rfl
@[simp] theorem State.setV_rng (x : Vector Byte 16) : (s.setV x).rng = s.rng := rfl
@[simp] theorem State.setV_mem (x : Vector Byte 16) : (s.setV x).mem = s.mem := rfl
@[simp] theorem State.setV_fb (x : Vector Byte 16) : (s.setV x).fb = s.fb := rfl
@[simp] theorem State.setV_key (x : Vector Byte 16) : (s.setV x).key = s.key := rfl

@[simp] theorem State.setI_v (x : Addr) : (s.setI x).v = s.v := rfl
@[simp] theorem State.setI_i (x : Addr) : (s.setI x).i = x := rfl
@[simp] theorem State.setI_pc (x : Addr) : (s.setI x).pc = s.pc := rfl
@[simp] theorem State.setI_sp (x : Addr) : (s.setI x).sp = s.sp := rfl
@[simp] theorem State.setI_stack (x : Addr) : (s.setI x).stack = s.stack := rfl
@[simp] theorem State.setI_dt (x : Addr) : (s.setI x).dt = s.dt := rfl
@[simp] theorem State.setI_st (x : Addr) : (s.setI x).st = s.st := rfl
@[simp] theorem State.setI_run (x : Addr) : (s.setI x).run = s.run := rfl
@[simp] theorem State.setI_waitx (x : Addr) : (s.setI x).waitx = s.waitx := rfl
@[simp] theorem State.setI_kprev (x : Addr) : (s.setI x).kprev = s.kprev := rfl
@[simp] theorem State.setI_fault (x : Addr) : (s.setI x).fault = s.fault := rfl
@[simp] theorem State.setI_rng (x : Addr) : (s.setI x).rng = s.rng := rfl
@[simp] theorem State.setI_mem (x : Addr) : (s.setI x).mem = s.mem := rfl
@[simp] theorem State.setI_fb (x : Addr) : (s.setI x).fb = s.fb := rfl
@[simp] theorem State.setI_key (x : Addr) : (s.setI x).key = s.key := rfl

@[simp] theorem State.setPc_v (x : Addr) : (s.setPc x).v = s.v := rfl
@[simp] theorem State.setPc_i (x : Addr) : (s.setPc x).i = s.i := rfl
@[simp] theorem State.setPc_pc (x : Addr) : (s.setPc x).pc = x := rfl
@[simp] theorem State.setPc_sp (x : Addr) : (s.setPc x).sp = s.sp := rfl
@[simp] theorem State.setPc_stack (x : Addr) : (s.setPc x).stack = s.stack := rfl
@[simp] theorem State.setPc_dt (x : Addr) : (s.setPc x).dt = s.dt := rfl
@[simp] theorem State.setPc_st (x : Addr) : (s.setPc x).st = s.st := rfl
@[simp] theorem State.setPc_run (x : Addr) : (s.setPc x).run = s.run := rfl
@[simp] theorem State.setPc_waitx (x : Addr) : (s.setPc x).waitx = s.waitx := rfl
@[simp] theorem State.setPc_kprev (x : Addr) : (s.setPc x).kprev = s.kprev := rfl
@[simp] theorem State.setPc_fault (x : Addr) : (s.setPc x).fault = s.fault := rfl
@[simp] theorem State.setPc_rng (x : Addr) : (s.setPc x).rng = s.rng := rfl
@[simp] theorem State.setPc_mem (x : Addr) : (s.setPc x).mem = s.mem := rfl
@[simp] theorem State.setPc_fb (x : Addr) : (s.setPc x).fb = s.fb := rfl
@[simp] theorem State.setPc_key (x : Addr) : (s.setPc x).key = s.key := rfl

@[simp] theorem State.setSp_v (x : BitVec 8) : (s.setSp x).v = s.v := rfl
@[simp] theorem State.setSp_i (x : BitVec 8) : (s.setSp x).i = s.i := rfl
@[simp] theorem State.setSp_pc (x : BitVec 8) : (s.setSp x).pc = s.pc := rfl
@[simp] theorem State.setSp_sp (x : BitVec 8) : (s.setSp x).sp = x := rfl
@[simp] theorem State.setSp_stack (x : BitVec 8) : (s.setSp x).stack = s.stack := rfl
@[simp] theorem State.setSp_dt (x : BitVec 8) : (s.setSp x).dt = s.dt := rfl
@[simp] theorem State.setSp_st (x : BitVec 8) : (s.setSp x).st = s.st := rfl
@[simp] theorem State.setSp_run (x : BitVec 8) : (s.setSp x).run = s.run := rfl
@[simp] theorem State.setSp_waitx (x : BitVec 8) : (s.setSp x).waitx = s.waitx := rfl
@[simp] theorem State.setSp_kprev (x : BitVec 8) : (s.setSp x).kprev = s.kprev := rfl
@[simp] theorem State.setSp_fault (x : BitVec 8) : (s.setSp x).fault = s.fault := rfl
@[simp] theorem State.setSp_rng (x : BitVec 8) : (s.setSp x).rng = s.rng := rfl
@[simp] theorem State.setSp_mem (x : BitVec 8) : (s.setSp x).mem = s.mem := rfl
@[simp] theorem State.setSp_fb (x : BitVec 8) : (s.setSp x).fb = s.fb := rfl
@[simp] theorem State.setSp_key (x : BitVec 8) : (s.setSp x).key = s.key := rfl

@[simp] theorem State.setStack_v (x : Vector Addr 16) : (s.setStack x).v = s.v := rfl
@[simp] theorem State.setStack_i (x : Vector Addr 16) : (s.setStack x).i = s.i := rfl
@[simp] theorem State.setStack_pc (x : Vector Addr 16) : (s.setStack x).pc = s.pc := rfl
@[simp] theorem State.setStack_sp (x : Vector Addr 16) : (s.setStack x).sp = s.sp := rfl
@[simp] theorem State.setStack_stack (x : Vector Addr 16) : (s.setStack x).stack = x := rfl
@[simp] theorem State.setStack_dt (x : Vector Addr 16) : (s.setStack x).dt = s.dt := rfl
@[simp] theorem State.setStack_st (x : Vector Addr 16) : (s.setStack x).st = s.st := rfl
@[simp] theorem State.setStack_run (x : Vector Addr 16) : (s.setStack x).run = s.run := rfl
@[simp] theorem State.setStack_waitx (x : Vector Addr 16) : (s.setStack x).waitx = s.waitx := rfl
@[simp] theorem State.setStack_kprev (x : Vector Addr 16) : (s.setStack x).kprev = s.kprev := rfl
@[simp] theorem State.setStack_fault (x : Vector Addr 16) : (s.setStack x).fault = s.fault := rfl
@[simp] theorem State.setStack_rng (x : Vector Addr 16) : (s.setStack x).rng = s.rng := rfl
@[simp] theorem State.setStack_mem (x : Vector Addr 16) : (s.setStack x).mem = s.mem := rfl
@[simp] theorem State.setStack_fb (x : Vector Addr 16) : (s.setStack x).fb = s.fb := rfl
@[simp] theorem State.setStack_key (x : Vector Addr 16) : (s.setStack x).key = s.key := rfl

@[simp] theorem State.setDt_v (x : Byte) : (s.setDt x).v = s.v := rfl
@[simp] theorem State.setDt_i (x : Byte) : (s.setDt x).i = s.i := rfl
@[simp] theorem State.setDt_pc (x : Byte) : (s.setDt x).pc = s.pc := rfl
@[simp] theorem State.setDt_sp (x : Byte) : (s.setDt x).sp = s.sp := rfl
@[simp] theorem State.setDt_stack (x : Byte) : (s.setDt x).stack = s.stack := rfl
@[simp] theorem State.setDt_dt (x : Byte) : (s.setDt x).dt = x := rfl
@[simp] theorem State.setDt_st (x : Byte) : (s.setDt x).st = s.st := rfl
@[simp] theorem State.setDt_run (x : Byte) : (s.setDt x).run = s.run := rfl
@[simp] theorem State.setDt_waitx (x : Byte) : (s.setDt x).waitx = s.waitx := rfl
@[simp] theorem State.setDt_kprev (x : Byte) : (s.setDt x).kprev = s.kprev := rfl
@[simp] theorem State.setDt_fault (x : Byte) : (s.setDt x).fault = s.fault := rfl
@[simp] theorem State.setDt_rng (x : Byte) : (s.setDt x).rng = s.rng := rfl
@[simp] theorem State.setDt_mem (x : Byte) : (s.setDt x).mem = s.mem := rfl
@[simp] theorem State.setDt_fb (x : Byte) : (s.setDt x).fb = s.fb := rfl
@[simp] theorem State.setDt_key (x : Byte) : (s.setDt x).key = s.key := rfl

@[simp] theorem State.setSt_v (x : Byte) : (s.setSt x).v = s.v := rfl
@[simp] theorem State.setSt_i (x : Byte) : (s.setSt x).i = s.i := rfl
@[simp] theorem State.setSt_pc (x : Byte) : (s.setSt x).pc = s.pc := rfl
@[simp] theorem State.setSt_sp (x : Byte) : (s.setSt x).sp = s.sp := rfl
@[simp] theorem State.setSt_stack (x : Byte) : (s.setSt x).stack = s.stack := rfl
@[simp] theorem State.setSt_dt (x : Byte) : (s.setSt x).dt = s.dt := rfl
@[simp] theorem State.setSt_st (x : Byte) : (s.setSt x).st = x := rfl
@[simp] theorem State.setSt_run (x : Byte) : (s.setSt x).run = s.run := rfl
@[simp] theorem State.setSt_waitx (x : Byte) : (s.setSt x).waitx = s.waitx := rfl
@[simp] theorem State.setSt_kprev (x : Byte) : (s.setSt x).kprev = s.kprev := rfl
@[simp] theorem State.setSt_fault (x : Byte) : (s.setSt x).fault = s.fault := rfl
@[simp] theorem State.setSt_rng (x : Byte) : (s.setSt x).rng = s.rng := rfl
@[simp] theorem State.setSt_mem (x : Byte) : (s.setSt x).mem = s.mem := rfl
@[simp] theorem State.setSt_fb (x : Byte) : (s.setSt x).fb = s.fb := rfl
@[simp] theorem State.setSt_key (x : Byte) : (s.setSt x).key = s.key := rfl

@[simp] theorem State.setRun_v (x : RunState) : (s.setRun x).v = s.v := rfl
@[simp] theorem State.setRun_i (x : RunState) : (s.setRun x).i = s.i := rfl
@[simp] theorem State.setRun_pc (x : RunState) : (s.setRun x).pc = s.pc := rfl
@[simp] theorem State.setRun_sp (x : RunState) : (s.setRun x).sp = s.sp := rfl
@[simp] theorem State.setRun_stack (x : RunState) : (s.setRun x).stack = s.stack := rfl
@[simp] theorem State.setRun_dt (x : RunState) : (s.setRun x).dt = s.dt := rfl
@[simp] theorem State.setRun_st (x : RunState) : (s.setRun x).st = s.st := rfl
@[simp] theorem State.setRun_run (x : RunState) : (s.setRun x).run = x := rfl
@[simp] theorem State.setRun_waitx (x : RunState) : (s.setRun x).waitx = s.waitx := rfl
@[simp] theorem State.setRun_kprev (x : RunState) : (s.setRun x).kprev = s.kprev := rfl
@[simp] theorem State.setRun_fault (x : RunState) : (s.setRun x).fault = s.fault := rfl
@[simp] theorem State.setRun_rng (x : RunState) : (s.setRun x).rng = s.rng := rfl
@[simp] theorem State.setRun_mem (x : RunState) : (s.setRun x).mem = s.mem := rfl
@[simp] theorem State.setRun_fb (x : RunState) : (s.setRun x).fb = s.fb := rfl
@[simp] theorem State.setRun_key (x : RunState) : (s.setRun x).key = s.key := rfl

@[simp] theorem State.setWaitx_v (x : Nibble) : (s.setWaitx x).v = s.v := rfl
@[simp] theorem State.setWaitx_i (x : Nibble) : (s.setWaitx x).i = s.i := rfl
@[simp] theorem State.setWaitx_pc (x : Nibble) : (s.setWaitx x).pc = s.pc := rfl
@[simp] theorem State.setWaitx_sp (x : Nibble) : (s.setWaitx x).sp = s.sp := rfl
@[simp] theorem State.setWaitx_stack (x : Nibble) : (s.setWaitx x).stack = s.stack := rfl
@[simp] theorem State.setWaitx_dt (x : Nibble) : (s.setWaitx x).dt = s.dt := rfl
@[simp] theorem State.setWaitx_st (x : Nibble) : (s.setWaitx x).st = s.st := rfl
@[simp] theorem State.setWaitx_run (x : Nibble) : (s.setWaitx x).run = s.run := rfl
@[simp] theorem State.setWaitx_waitx (x : Nibble) : (s.setWaitx x).waitx = x := rfl
@[simp] theorem State.setWaitx_kprev (x : Nibble) : (s.setWaitx x).kprev = s.kprev := rfl
@[simp] theorem State.setWaitx_fault (x : Nibble) : (s.setWaitx x).fault = s.fault := rfl
@[simp] theorem State.setWaitx_rng (x : Nibble) : (s.setWaitx x).rng = s.rng := rfl
@[simp] theorem State.setWaitx_mem (x : Nibble) : (s.setWaitx x).mem = s.mem := rfl
@[simp] theorem State.setWaitx_fb (x : Nibble) : (s.setWaitx x).fb = s.fb := rfl
@[simp] theorem State.setWaitx_key (x : Nibble) : (s.setWaitx x).key = s.key := rfl

@[simp] theorem State.setKprev_v (x : Vector Bool 16) : (s.setKprev x).v = s.v := rfl
@[simp] theorem State.setKprev_i (x : Vector Bool 16) : (s.setKprev x).i = s.i := rfl
@[simp] theorem State.setKprev_pc (x : Vector Bool 16) : (s.setKprev x).pc = s.pc := rfl
@[simp] theorem State.setKprev_sp (x : Vector Bool 16) : (s.setKprev x).sp = s.sp := rfl
@[simp] theorem State.setKprev_stack (x : Vector Bool 16) : (s.setKprev x).stack = s.stack := rfl
@[simp] theorem State.setKprev_dt (x : Vector Bool 16) : (s.setKprev x).dt = s.dt := rfl
@[simp] theorem State.setKprev_st (x : Vector Bool 16) : (s.setKprev x).st = s.st := rfl
@[simp] theorem State.setKprev_run (x : Vector Bool 16) : (s.setKprev x).run = s.run := rfl
@[simp] theorem State.setKprev_waitx (x : Vector Bool 16) : (s.setKprev x).waitx = s.waitx := rfl
@[simp] theorem State.setKprev_kprev (x : Vector Bool 16) : (s.setKprev x).kprev = x := rfl
@[simp] theorem State.setKprev_fault (x : Vector Bool 16) : (s.setKprev x).fault = s.fault := rfl
@[simp] theorem State.setKprev_rng (x : Vector Bool 16) : (s.setKprev x).rng = s.rng := rfl
@[simp] theorem State.setKprev_mem (x : Vector Bool 16) : (s.setKprev x).mem = s.mem := rfl
@[simp] theorem State.setKprev_fb (x : Vector Bool 16) : (s.setKprev x).fb = s.fb := rfl
@[simp] theorem State.setKprev_key (x : Vector Bool 16) : (s.setKprev x).key = s.key := rfl

@[simp] theorem State.setFault_v (x : Option FatalFault) : (s.setFault x).v = s.v := rfl
@[simp] theorem State.setFault_i (x : Option FatalFault) : (s.setFault x).i = s.i := rfl
@[simp] theorem State.setFault_pc (x : Option FatalFault) : (s.setFault x).pc = s.pc := rfl
@[simp] theorem State.setFault_sp (x : Option FatalFault) : (s.setFault x).sp = s.sp := rfl
@[simp] theorem State.setFault_stack (x : Option FatalFault) : (s.setFault x).stack = s.stack := rfl
@[simp] theorem State.setFault_dt (x : Option FatalFault) : (s.setFault x).dt = s.dt := rfl
@[simp] theorem State.setFault_st (x : Option FatalFault) : (s.setFault x).st = s.st := rfl
@[simp] theorem State.setFault_run (x : Option FatalFault) : (s.setFault x).run = s.run := rfl
@[simp] theorem State.setFault_waitx (x : Option FatalFault) : (s.setFault x).waitx = s.waitx := rfl
@[simp] theorem State.setFault_kprev (x : Option FatalFault) : (s.setFault x).kprev = s.kprev := rfl
@[simp] theorem State.setFault_fault (x : Option FatalFault) : (s.setFault x).fault = x := rfl
@[simp] theorem State.setFault_rng (x : Option FatalFault) : (s.setFault x).rng = s.rng := rfl
@[simp] theorem State.setFault_mem (x : Option FatalFault) : (s.setFault x).mem = s.mem := rfl
@[simp] theorem State.setFault_fb (x : Option FatalFault) : (s.setFault x).fb = s.fb := rfl
@[simp] theorem State.setFault_key (x : Option FatalFault) : (s.setFault x).key = s.key := rfl

@[simp] theorem State.setRng_v (x : Nat) : (s.setRng x).v = s.v := rfl
@[simp] theorem State.setRng_i (x : Nat) : (s.setRng x).i = s.i := rfl
@[simp] theorem State.setRng_pc (x : Nat) : (s.setRng x).pc = s.pc := rfl
@[simp] theorem State.setRng_sp (x : Nat) : (s.setRng x).sp = s.sp := rfl
@[simp] theorem State.setRng_stack (x : Nat) : (s.setRng x).stack = s.stack := rfl
@[simp] theorem State.setRng_dt (x : Nat) : (s.setRng x).dt = s.dt := rfl
@[simp] theorem State.setRng_st (x : Nat) : (s.setRng x).st = s.st := rfl
@[simp] theorem State.setRng_run (x : Nat) : (s.setRng x).run = s.run := rfl
@[simp] theorem State.setRng_waitx (x : Nat) : (s.setRng x).waitx = s.waitx := rfl
@[simp] theorem State.setRng_kprev (x : Nat) : (s.setRng x).kprev = s.kprev := rfl
@[simp] theorem State.setRng_fault (x : Nat) : (s.setRng x).fault = s.fault := rfl
@[simp] theorem State.setRng_rng (x : Nat) : (s.setRng x).rng = x := rfl
@[simp] theorem State.setRng_mem (x : Nat) : (s.setRng x).mem = s.mem := rfl
@[simp] theorem State.setRng_fb (x : Nat) : (s.setRng x).fb = s.fb := rfl
@[simp] theorem State.setRng_key (x : Nat) : (s.setRng x).key = s.key := rfl

@[simp] theorem State.setMem_v (x : Memory) : (s.setMem x).v = s.v := rfl
@[simp] theorem State.setMem_i (x : Memory) : (s.setMem x).i = s.i := rfl
@[simp] theorem State.setMem_pc (x : Memory) : (s.setMem x).pc = s.pc := rfl
@[simp] theorem State.setMem_sp (x : Memory) : (s.setMem x).sp = s.sp := rfl
@[simp] theorem State.setMem_stack (x : Memory) : (s.setMem x).stack = s.stack := rfl
@[simp] theorem State.setMem_dt (x : Memory) : (s.setMem x).dt = s.dt := rfl
@[simp] theorem State.setMem_st (x : Memory) : (s.setMem x).st = s.st := rfl
@[simp] theorem State.setMem_run (x : Memory) : (s.setMem x).run = s.run := rfl
@[simp] theorem State.setMem_waitx (x : Memory) : (s.setMem x).waitx = s.waitx := rfl
@[simp] theorem State.setMem_kprev (x : Memory) : (s.setMem x).kprev = s.kprev := rfl
@[simp] theorem State.setMem_fault (x : Memory) : (s.setMem x).fault = s.fault := rfl
@[simp] theorem State.setMem_rng (x : Memory) : (s.setMem x).rng = s.rng := rfl
@[simp] theorem State.setMem_mem (x : Memory) : (s.setMem x).mem = x := rfl
@[simp] theorem State.setMem_fb (x : Memory) : (s.setMem x).fb = s.fb := rfl
@[simp] theorem State.setMem_key (x : Memory) : (s.setMem x).key = s.key := rfl

@[simp] theorem State.setFb_v (x : FrameBuffer) : (s.setFb x).v = s.v := rfl
@[simp] theorem State.setFb_i (x : FrameBuffer) : (s.setFb x).i = s.i := rfl
@[simp] theorem State.setFb_pc (x : FrameBuffer) : (s.setFb x).pc = s.pc := rfl
@[simp] theorem State.setFb_sp (x : FrameBuffer) : (s.setFb x).sp = s.sp := rfl
@[simp] theorem State.setFb_stack (x : FrameBuffer) : (s.setFb x).stack = s.stack := rfl
@[simp] theorem State.setFb_dt (x : FrameBuffer) : (s.setFb x).dt = s.dt := rfl
@[simp] theorem State.setFb_st (x : FrameBuffer) : (s.setFb x).st = s.st := rfl
@[simp] theorem State.setFb_run (x : FrameBuffer) : (s.setFb x).run = s.run := rfl
@[simp] theorem State.setFb_waitx (x : FrameBuffer) : (s.setFb x).waitx = s.waitx := rfl
@[simp] theorem State.setFb_kprev (x : FrameBuffer) : (s.setFb x).kprev = s.kprev := rfl
@[simp] theorem State.setFb_fault (x : FrameBuffer) : (s.setFb x).fault = s.fault := rfl
@[simp] theorem State.setFb_rng (x : FrameBuffer) : (s.setFb x).rng = s.rng := rfl
@[simp] theorem State.setFb_mem (x : FrameBuffer) : (s.setFb x).mem = s.mem := rfl
@[simp] theorem State.setFb_fb (x : FrameBuffer) : (s.setFb x).fb = x := rfl
@[simp] theorem State.setFb_key (x : FrameBuffer) : (s.setFb x).key = s.key := rfl

@[simp] theorem State.setKey_v (x : Vector Bool 16) : (s.setKey x).v = s.v := rfl
@[simp] theorem State.setKey_i (x : Vector Bool 16) : (s.setKey x).i = s.i := rfl
@[simp] theorem State.setKey_pc (x : Vector Bool 16) : (s.setKey x).pc = s.pc := rfl
@[simp] theorem State.setKey_sp (x : Vector Bool 16) : (s.setKey x).sp = s.sp := rfl
@[simp] theorem State.setKey_stack (x : Vector Bool 16) : (s.setKey x).stack = s.stack := rfl
@[simp] theorem State.setKey_dt (x : Vector Bool 16) : (s.setKey x).dt = s.dt := rfl
@[simp] theorem State.setKey_st (x : Vector Bool 16) : (s.setKey x).st = s.st := rfl
@[simp] theorem State.setKey_run (x : Vector Bool 16) : (s.setKey x).run = s.run := rfl
@[simp] theorem State.setKey_waitx (x : Vector Bool 16) : (s.setKey x).waitx = s.waitx := rfl
@[simp] theorem State.setKey_kprev (x : Vector Bool 16) : (s.setKey x).kprev = s.kprev := rfl
@[simp] theorem State.setKey_fault (x : Vector Bool 16) : (s.setKey x).fault = s.fault := rfl
@[simp] theorem State.setKey_rng (x : Vector Bool 16) : (s.setKey x).rng = s.rng := rfl
@[simp] theorem State.setKey_mem (x : Vector Bool 16) : (s.setKey x).mem = s.mem := rfl
@[simp] theorem State.setKey_fb (x : Vector Bool 16) : (s.setKey x).fb = s.fb := rfl
@[simp] theorem State.setKey_key (x : Vector Bool 16) : (s.setKey x).key = x := rfl

end Sys2Proof.Machine
end

