-- ==== Sys2Proof/Laws/Update.lean ====
section
/-! SUPPORT. Every compound update of State against every field, and register reads under every update that writes no V register. -/

namespace Sys2Proof.Machine

variable (s : State)

@[simp] theorem State.writeV_i (x : Nibble) (b : Byte) : (s.writeV x b).i = s.i := rfl
@[simp] theorem State.writeV_pc (x : Nibble) (b : Byte) : (s.writeV x b).pc = s.pc := rfl
@[simp] theorem State.writeV_sp (x : Nibble) (b : Byte) : (s.writeV x b).sp = s.sp := rfl
@[simp] theorem State.writeV_stack (x : Nibble) (b : Byte) : (s.writeV x b).stack = s.stack := rfl
@[simp] theorem State.writeV_dt (x : Nibble) (b : Byte) : (s.writeV x b).dt = s.dt := rfl
@[simp] theorem State.writeV_st (x : Nibble) (b : Byte) : (s.writeV x b).st = s.st := rfl
@[simp] theorem State.writeV_run (x : Nibble) (b : Byte) : (s.writeV x b).run = s.run := rfl
@[simp] theorem State.writeV_waitx (x : Nibble) (b : Byte) : (s.writeV x b).waitx = s.waitx := rfl
@[simp] theorem State.writeV_kprev (x : Nibble) (b : Byte) : (s.writeV x b).kprev = s.kprev := rfl
@[simp] theorem State.writeV_fault (x : Nibble) (b : Byte) : (s.writeV x b).fault = s.fault := rfl
@[simp] theorem State.writeV_rng (x : Nibble) (b : Byte) : (s.writeV x b).rng = s.rng := rfl
@[simp] theorem State.writeV_mem (x : Nibble) (b : Byte) : (s.writeV x b).mem = s.mem := rfl
@[simp] theorem State.writeV_fb (x : Nibble) (b : Byte) : (s.writeV x b).fb = s.fb := rfl
@[simp] theorem State.writeV_key (x : Nibble) (b : Byte) : (s.writeV x b).key = s.key := rfl

@[simp] theorem State.writeResultFlag_i (x : Nibble) (r : Byte) (c : Bool) : (s.writeResultFlag x r c).i = s.i := rfl
@[simp] theorem State.writeResultFlag_pc (x : Nibble) (r : Byte) (c : Bool) : (s.writeResultFlag x r c).pc = s.pc := rfl
@[simp] theorem State.writeResultFlag_sp (x : Nibble) (r : Byte) (c : Bool) : (s.writeResultFlag x r c).sp = s.sp := rfl
@[simp] theorem State.writeResultFlag_stack (x : Nibble) (r : Byte) (c : Bool) : (s.writeResultFlag x r c).stack = s.stack := rfl
@[simp] theorem State.writeResultFlag_dt (x : Nibble) (r : Byte) (c : Bool) : (s.writeResultFlag x r c).dt = s.dt := rfl
@[simp] theorem State.writeResultFlag_st (x : Nibble) (r : Byte) (c : Bool) : (s.writeResultFlag x r c).st = s.st := rfl
@[simp] theorem State.writeResultFlag_run (x : Nibble) (r : Byte) (c : Bool) : (s.writeResultFlag x r c).run = s.run := rfl
@[simp] theorem State.writeResultFlag_waitx (x : Nibble) (r : Byte) (c : Bool) : (s.writeResultFlag x r c).waitx = s.waitx := rfl
@[simp] theorem State.writeResultFlag_kprev (x : Nibble) (r : Byte) (c : Bool) : (s.writeResultFlag x r c).kprev = s.kprev := rfl
@[simp] theorem State.writeResultFlag_fault (x : Nibble) (r : Byte) (c : Bool) : (s.writeResultFlag x r c).fault = s.fault := rfl
@[simp] theorem State.writeResultFlag_rng (x : Nibble) (r : Byte) (c : Bool) : (s.writeResultFlag x r c).rng = s.rng := rfl
@[simp] theorem State.writeResultFlag_mem (x : Nibble) (r : Byte) (c : Bool) : (s.writeResultFlag x r c).mem = s.mem := rfl
@[simp] theorem State.writeResultFlag_fb (x : Nibble) (r : Byte) (c : Bool) : (s.writeResultFlag x r c).fb = s.fb := rfl
@[simp] theorem State.writeResultFlag_key (x : Nibble) (r : Byte) (c : Bool) : (s.writeResultFlag x r c).key = s.key := rfl

@[simp] theorem State.advance_v : (s.advance).v = s.v := rfl
@[simp] theorem State.advance_i : (s.advance).i = s.i := rfl
@[simp] theorem State.advance_pc : (s.advance).pc = s.pcn := rfl
@[simp] theorem State.advance_sp : (s.advance).sp = s.sp := rfl
@[simp] theorem State.advance_stack : (s.advance).stack = s.stack := rfl
@[simp] theorem State.advance_dt : (s.advance).dt = s.dt := rfl
@[simp] theorem State.advance_st : (s.advance).st = s.st := rfl
@[simp] theorem State.advance_run : (s.advance).run = s.run := rfl
@[simp] theorem State.advance_waitx : (s.advance).waitx = s.waitx := rfl
@[simp] theorem State.advance_kprev : (s.advance).kprev = s.kprev := rfl
@[simp] theorem State.advance_fault : (s.advance).fault = s.fault := rfl
@[simp] theorem State.advance_rng : (s.advance).rng = s.rng := rfl
@[simp] theorem State.advance_mem : (s.advance).mem = s.mem := rfl
@[simp] theorem State.advance_fb : (s.advance).fb = s.fb := rfl
@[simp] theorem State.advance_key : (s.advance).key = s.key := rfl
@[simp] theorem State.readV_advance (k : Nibble) : (s.advance).readV k = s.readV k := rfl

@[simp] theorem State.skipIf_v (c : Bool) : (s.skipIf c).v = s.v := rfl
@[simp] theorem State.skipIf_i (c : Bool) : (s.skipIf c).i = s.i := rfl
@[simp] theorem State.skipIf_pc (c : Bool) : (s.skipIf c).pc = if c then s.pcn + 2#16 else s.pcn := rfl
@[simp] theorem State.skipIf_sp (c : Bool) : (s.skipIf c).sp = s.sp := rfl
@[simp] theorem State.skipIf_stack (c : Bool) : (s.skipIf c).stack = s.stack := rfl
@[simp] theorem State.skipIf_dt (c : Bool) : (s.skipIf c).dt = s.dt := rfl
@[simp] theorem State.skipIf_st (c : Bool) : (s.skipIf c).st = s.st := rfl
@[simp] theorem State.skipIf_run (c : Bool) : (s.skipIf c).run = s.run := rfl
@[simp] theorem State.skipIf_waitx (c : Bool) : (s.skipIf c).waitx = s.waitx := rfl
@[simp] theorem State.skipIf_kprev (c : Bool) : (s.skipIf c).kprev = s.kprev := rfl
@[simp] theorem State.skipIf_fault (c : Bool) : (s.skipIf c).fault = s.fault := rfl
@[simp] theorem State.skipIf_rng (c : Bool) : (s.skipIf c).rng = s.rng := rfl
@[simp] theorem State.skipIf_mem (c : Bool) : (s.skipIf c).mem = s.mem := rfl
@[simp] theorem State.skipIf_fb (c : Bool) : (s.skipIf c).fb = s.fb := rfl
@[simp] theorem State.skipIf_key (c : Bool) : (s.skipIf c).key = s.key := rfl
@[simp] theorem State.readV_skipIf (c : Bool) (k : Nibble) : (s.skipIf c).readV k = s.readV k := rfl

@[simp] theorem State.enterFault_v (f : FatalFault) : (s.enterFault f).v = s.v := rfl
@[simp] theorem State.enterFault_i (f : FatalFault) : (s.enterFault f).i = s.i := rfl
@[simp] theorem State.enterFault_pc (f : FatalFault) : (s.enterFault f).pc = s.pc := rfl
@[simp] theorem State.enterFault_sp (f : FatalFault) : (s.enterFault f).sp = s.sp := rfl
@[simp] theorem State.enterFault_stack (f : FatalFault) : (s.enterFault f).stack = s.stack := rfl
@[simp] theorem State.enterFault_dt (f : FatalFault) : (s.enterFault f).dt = s.dt := rfl
@[simp] theorem State.enterFault_st (f : FatalFault) : (s.enterFault f).st = s.st := rfl
@[simp] theorem State.enterFault_run (f : FatalFault) : (s.enterFault f).run = .halted := rfl
@[simp] theorem State.enterFault_waitx (f : FatalFault) : (s.enterFault f).waitx = s.waitx := rfl
@[simp] theorem State.enterFault_kprev (f : FatalFault) : (s.enterFault f).kprev = s.kprev := rfl
@[simp] theorem State.enterFault_fault (f : FatalFault) : (s.enterFault f).fault = some f := rfl
@[simp] theorem State.enterFault_rng (f : FatalFault) : (s.enterFault f).rng = s.rng := rfl
@[simp] theorem State.enterFault_mem (f : FatalFault) : (s.enterFault f).mem = s.mem := rfl
@[simp] theorem State.enterFault_fb (f : FatalFault) : (s.enterFault f).fb = s.fb := rfl
@[simp] theorem State.enterFault_key (f : FatalFault) : (s.enterFault f).key = s.key := rfl
@[simp] theorem State.readV_enterFault (f : FatalFault) (k : Nibble) : (s.enterFault f).readV k = s.readV k := rfl

@[simp] theorem State.drawRng_v : (s.drawRng).v = s.v := rfl
@[simp] theorem State.drawRng_i : (s.drawRng).i = s.i := rfl
@[simp] theorem State.drawRng_pc : (s.drawRng).pc = s.pc := rfl
@[simp] theorem State.drawRng_sp : (s.drawRng).sp = s.sp := rfl
@[simp] theorem State.drawRng_stack : (s.drawRng).stack = s.stack := rfl
@[simp] theorem State.drawRng_dt : (s.drawRng).dt = s.dt := rfl
@[simp] theorem State.drawRng_st : (s.drawRng).st = s.st := rfl
@[simp] theorem State.drawRng_run : (s.drawRng).run = s.run := rfl
@[simp] theorem State.drawRng_waitx : (s.drawRng).waitx = s.waitx := rfl
@[simp] theorem State.drawRng_kprev : (s.drawRng).kprev = s.kprev := rfl
@[simp] theorem State.drawRng_fault : (s.drawRng).fault = s.fault := rfl
@[simp] theorem State.drawRng_rng : (s.drawRng).rng = (Config.rngNext s.rng).2 := rfl
@[simp] theorem State.drawRng_mem : (s.drawRng).mem = s.mem := rfl
@[simp] theorem State.drawRng_fb : (s.drawRng).fb = s.fb := rfl
@[simp] theorem State.drawRng_key : (s.drawRng).key = s.key := rfl
@[simp] theorem State.readV_drawRng (k : Nibble) : (s.drawRng).readV k = s.readV k := rfl

@[simp] theorem State.readV_setI (x : Addr) (k : Nibble) : (s.setI x).readV k = s.readV k := rfl
@[simp] theorem State.readV_setPc (x : Addr) (k : Nibble) : (s.setPc x).readV k = s.readV k := rfl
@[simp] theorem State.readV_setSp (x : BitVec 8) (k : Nibble) : (s.setSp x).readV k = s.readV k := rfl
@[simp] theorem State.readV_setStack (x : Vector Addr 16) (k : Nibble) : (s.setStack x).readV k = s.readV k := rfl
@[simp] theorem State.readV_setDt (x : Byte) (k : Nibble) : (s.setDt x).readV k = s.readV k := rfl
@[simp] theorem State.readV_setSt (x : Byte) (k : Nibble) : (s.setSt x).readV k = s.readV k := rfl
@[simp] theorem State.readV_setRun (x : RunState) (k : Nibble) : (s.setRun x).readV k = s.readV k := rfl
@[simp] theorem State.readV_setWaitx (x : Nibble) (k : Nibble) : (s.setWaitx x).readV k = s.readV k := rfl
@[simp] theorem State.readV_setKprev (x : Vector Bool 16) (k : Nibble) : (s.setKprev x).readV k = s.readV k := rfl
@[simp] theorem State.readV_setFault (x : Option FatalFault) (k : Nibble) : (s.setFault x).readV k = s.readV k := rfl
@[simp] theorem State.readV_setRng (x : Nat) (k : Nibble) : (s.setRng x).readV k = s.readV k := rfl
@[simp] theorem State.readV_setMem (x : Memory) (k : Nibble) : (s.setMem x).readV k = s.readV k := rfl
@[simp] theorem State.readV_setFb (x : FrameBuffer) (k : Nibble) : (s.setFb x).readV k = s.readV k := rfl
@[simp] theorem State.readV_setKey (x : Vector Bool 16) (k : Nibble) : (s.setKey x).readV k = s.readV k := rfl

end Sys2Proof.Machine
end

