-- ==== Sys2Proof/Laws/Ops.lean ====
section
/-! SUPPORT. What each shared operation can do, said once: memory reads after writes and the canonical form, the checked
primitives, registers, stack and PC. -/

namespace Sys2Proof.Machine

/-! ## Memory -/

theorem Memory.get_erase (m : Memory) (a b : Nat) :
    Memory.get (Memory.erase m a) b = if b = a then background a else Memory.get m b := by
  induction m with
  | nil => by_cases h : b = a <;> simp [Memory.erase, Memory.get, h]
  | cons c rest ih =>
    obtain ⟨k, v⟩ := c
    by_cases hk : a = k
    · subst hk
      simp only [Memory.erase, if_true, ih, Memory.get]
      by_cases hb : b = a <;> simp [hb]
    · simp only [Memory.erase, if_neg hk, Memory.get, ih]
      by_cases hb : b = k
      · subst hb; simp [Ne.symm hk]
      · simp [hb]

theorem Memory.get_insert (m : Memory) (a : Nat) (v : Byte) (b : Nat) (h : ∀ c ∈ m, c.1 ≠ a) :
    Memory.get (Memory.insert m a v) b = if b = a then v else Memory.get m b := by
  induction m with
  | nil => simp [Memory.insert, Memory.get]
  | cons c rest ih =>
    obtain ⟨k, w⟩ := c
    have hk : k ≠ a := h (k, w) (by simp)
    by_cases hlt : a < k
    · simp [Memory.insert, hlt, Memory.get]
    · simp only [Memory.insert, if_neg hlt, Memory.get]
      rw [ih (fun c hc => h c (by simp [hc]))]
      by_cases hb : b = k
      · subst hb; simp [hk]
      · simp [hb]

theorem Memory.mem_erase {m : Memory} {a : Nat} {c : Host.Cell} (h : c ∈ Memory.erase m a) : c ∈ m ∧ c.1 ≠ a := by
  induction m with
  | nil => simp [Memory.erase] at h
  | cons d rest ih =>
    obtain ⟨k, w⟩ := d
    by_cases hk : a = k
    · simp only [Memory.erase, if_pos hk] at h
      exact ⟨by simp [(ih h).1], (ih h).2⟩
    · simp only [Memory.erase, if_neg hk, List.mem_cons] at h
      rcases h with rfl | h
      · exact ⟨by simp, Ne.symm hk⟩
      · exact ⟨by simp [(ih h).1], (ih h).2⟩

/-- Reading after one write: the written address gives the byte, every other address what it gave before (R56, R61). -/
theorem Memory.get_set (m : Memory) (a : Nat) (v : Byte) (b : Nat) :
    Memory.get (Memory.set m a v) b = if b = a then v else Memory.get m b := by
  unfold Memory.set
  by_cases hv : v = background a
  · simp [hv, Memory.get_erase]
  · rw [if_neg hv, Memory.get_insert _ _ _ _ (fun c hc => (Memory.mem_erase hc).2), Memory.get_erase]
    by_cases hb : b = a <;> simp [hb]

/-- Reading after a block write, outside the block. -/
theorem Memory.get_setBytes_outside (m : Memory) (a : Nat) (bytes : List Byte) (b : Nat)
    (hb : b < a ∨ a + bytes.length ≤ b) : Memory.get (Memory.setBytes m a bytes) b = Memory.get m b := by
  induction bytes generalizing m a with
  | nil => rfl
  | cons v rest ih =>
    rw [List.length_cons] at hb
    rw [Memory.setBytes, ih _ _ (by omega), Memory.get_set, if_neg (by omega)]

/-- Reading after a block write, inside the block. -/
theorem Memory.get_setBytes_inside (m : Memory) (a : Nat) (bytes : List Byte) (j : Nat) (hj : j < bytes.length) :
    Memory.get (Memory.setBytes m a bytes) (a + j) = bytes[j] := by
  induction bytes generalizing m a j with
  | nil => simp at hj
  | cons v rest ih =>
    cases j with
    | zero =>
      rw [Memory.setBytes, Memory.get_setBytes_outside _ _ _ _ (by omega), Memory.get_set]
      simp
    | succ k =>
      have := ih (Memory.set m a v) (a + 1) k (by simpa using hj)
      rw [show a + 1 + k = a + (k + 1) by omega] at this
      simpa [Memory.setBytes] using this

theorem Memory.wfFrom_mono {lo lo' : Nat} {m : Memory} (h : Memory.wfFrom lo m = true) (hl : lo' ≤ lo) :
    Memory.wfFrom lo' m = true := by
  cases m with
  | nil => rfl
  | cons c rest =>
    obtain ⟨k, w⟩ := c
    simp only [Memory.wfFrom, Bool.and_eq_true, decide_eq_true_eq] at h ⊢
    exact ⟨⟨⟨by omega, h.1.1.2⟩, h.1.2⟩, h.2⟩

theorem Memory.wfFrom_erase {lo : Nat} {m : Memory} (a : Nat) (h : Memory.wfFrom lo m = true) :
    Memory.wfFrom lo (Memory.erase m a) = true := by
  induction m generalizing lo with
  | nil => rfl
  | cons c rest ih =>
    obtain ⟨k, w⟩ := c
    simp only [Memory.wfFrom, Bool.and_eq_true, decide_eq_true_eq] at h
    by_cases hk : a = k
    · rw [Memory.erase, if_pos hk]
      exact Memory.wfFrom_mono (ih h.2) (by omega)
    · rw [Memory.erase, if_neg hk]
      simp only [Memory.wfFrom, Bool.and_eq_true, decide_eq_true_eq]
      exact ⟨h.1, ih h.2⟩

theorem Memory.wfFrom_insert {lo : Nat} {m : Memory} {a : Nat} {v : Byte} (h : Memory.wfFrom lo m = true)
    (hne : ∀ c ∈ m, c.1 ≠ a) (hlo : lo ≤ a) (hhi : a ≤ 0xFFF) (hv : v ≠ background a) :
    Memory.wfFrom lo (Memory.insert m a v) = true := by
  induction m generalizing lo with
  | nil => simp [Memory.insert, Memory.wfFrom, hlo, hhi, hv]
  | cons c rest ih =>
    obtain ⟨k, w⟩ := c
    have hk : k ≠ a := hne (k, w) (by simp)
    have h' := h
    simp only [Memory.wfFrom, Bool.and_eq_true, decide_eq_true_eq] at h
    by_cases hlt : a < k
    · rw [Memory.insert, if_pos hlt]
      simp only [Memory.wfFrom, Bool.and_eq_true, decide_eq_true_eq]
      exact ⟨⟨⟨hlo, hhi⟩, by simpa using hv⟩, ⟨⟨⟨by omega, h.1.1.2⟩, h.1.2⟩, h.2⟩⟩
    · rw [Memory.insert, if_neg hlt]
      simp only [Memory.wfFrom, Bool.and_eq_true, decide_eq_true_eq]
      exact ⟨h.1, ih h.2 (fun c hc => hne c (by simp [hc])) (by omega)⟩

/-- A write inside MEM keeps the canonical form. -/
theorem Memory.wf_set {m : Memory} {a : Nat} (v : Byte) (h : Memory.wf m = true) (ha : a ≤ 0xFFF) :
    Memory.wf (Memory.set m a v) = true := by
  unfold Memory.wf Memory.set at *
  split
  · exact Memory.wfFrom_erase a h
  · exact Memory.wfFrom_insert (Memory.wfFrom_erase a h) (fun c hc => (Memory.mem_erase hc).2) (by omega) ha ‹_›

/-- A block write inside MEM keeps the canonical form. -/
theorem Memory.wf_setBytes {m : Memory} {a : Nat} {bytes : List Byte} (h : Memory.wf m = true)
    (ha : a + bytes.length ≤ 0x1000) : Memory.wf (Memory.setBytes m a bytes) = true := by
  induction bytes generalizing m a with
  | nil => exact h
  | cons v rest ih =>
    rw [List.length_cons] at ha
    rw [Memory.setBytes]
    exact ih (Memory.wf_set v h (by omega)) (by omega)

theorem Memory.mem_insert {m : Memory} {a : Nat} {v : Byte} {c : Host.Cell} (h : c ∈ Memory.insert m a v) :
    c = (a, v) ∨ c ∈ m := by
  induction m with
  | nil => simpa [Memory.insert] using h
  | cons d rest ih =>
    obtain ⟨k, w⟩ := d
    rw [Memory.insert] at h
    split at h
    · simpa using h
    · rcases List.mem_cons.mp h with rfl | h
      · simp
      · rcases ih h with h | h <;> simp [h]

/-- A block write lists no address below its base that was not listed before. -/
theorem Memory.mem_setBytes {m : Memory} {a : Nat} {bytes : List Byte} {c : Host.Cell}
    (h : c ∈ Memory.setBytes m a bytes) : a ≤ c.1 ∨ c ∈ m := by
  induction bytes generalizing m a with
  | nil => exact .inr h
  | cons v rest ih =>
    rw [Memory.setBytes] at h
    rcases ih h with h | h
    · exact .inl (by omega)
    · rw [Memory.set] at h
      split at h
      · exact .inr (Memory.mem_erase h).1
      · rcases Memory.mem_insert h with rfl | h
        · exact .inl (Nat.le_refl _)
        · exact .inr (Memory.mem_erase h).1

@[simp] theorem Memory.length_getBytes (m : Memory) (a n : Nat) : (Memory.getBytes m a n).length = n := by
  simp [Memory.getBytes]

@[simp] theorem Memory.getElem_getBytes (m : Memory) (a n j : Nat) (h : j < (Memory.getBytes m a n).length) :
    (Memory.getBytes m a n)[j] = Memory.get m (a + j) := by
  simp [Memory.getBytes]

/-! ## The checked primitives -/

/-- All `memRead` can do (R56, R57). -/
theorem memRead_cases (m : Memory) (addr n : Nat) :
    (0 < n ∧ addr + n - 1 > 0xFFF ∧ memRead m addr n = .raised .memoryOutOfBounds) ∨
    ((n = 0 ∨ addr + n ≤ 0x1000) ∧ memRead m addr n = .ok (Memory.getBytes m addr n)) := by
  unfold memRead
  split
  · exact .inl ⟨by omega, by omega, rfl⟩
  · exact .inr ⟨by omega, rfl⟩

/-- All `memWrite` can do (R57, R58). -/
theorem memWrite_cases (m : Memory) (addr : Nat) (bytes : List Byte) :
    (0 < bytes.length ∧ addr + bytes.length - 1 > 0xFFF ∧ memWrite m addr bytes = .raised .memoryOutOfBounds) ∨
    (0 < bytes.length ∧ addr + bytes.length ≤ 0x1000 ∧ addr < 0x200 ∧
      memWrite m addr bytes = .raised .writeProtected) ∨
    ((bytes.length = 0 ∨ (addr + bytes.length ≤ 0x1000 ∧ 0x200 ≤ addr)) ∧
      memWrite m addr bytes = .ok (Memory.setBytes m addr bytes)) := by
  unfold memWrite
  split
  · exact .inl ⟨by omega, by omega, rfl⟩
  · split
    · exact .inr (.inl ⟨by omega, by omega, by omega, rfl⟩)
    · exact .inr (.inr ⟨by omega, rfl⟩)

/-- All `fetch` can do (R91): its one check, or the two bytes at PC, big-endian. -/
theorem fetch_cases (s : State) :
    (s.pc.toNat + 1 > 0xFFF ∧ fetch s = .raised .programCounterOutOfBounds) ∨
    (s.pc.toNat + 1 ≤ 0xFFF ∧
      fetch s = .ok (assemble (Memory.get s.mem s.pc.toNat) (Memory.get s.mem (s.pc.toNat + 1)))) := by
  unfold fetch
  split
  · exact .inl ⟨by omega, rfl⟩
  · exact .inr ⟨by omega, rfl⟩

/-- All `push` can do (R27). -/
theorem push_cases (s : State) (a : Addr) :
    (s.sp.toNat = 16 ∧ push s a = .raised .stackOverflow) ∨
    (16 < s.sp.toNat ∧ push s a = .stuck .stackEntryAbsent) ∨
    (∃ h : s.sp.toNat < 16, push s a = .ok ((s.setStack (s.stack.set s.sp.toNat a h)).setSp (s.sp + 1#8))) := by
  unfold push stackDepth
  split
  · exact .inl ⟨‹_›, rfl⟩
  · split
    · exact .inr (.inr ⟨‹_›, rfl⟩)
    · exact .inr (.inl ⟨by omega, rfl⟩)

/-- All `pop` can do (R28). -/
theorem pop_cases (s : State) :
    (s.sp.toNat = 0 ∧ pop s = .raised .stackUnderflow) ∨
    (16 < s.sp.toNat ∧ pop s = .stuck .stackEntryAbsent) ∨
    (∃ h : s.sp.toNat - 1 < 16, 0 < s.sp.toNat ∧
      pop s = .ok (s.stack[s.sp.toNat - 1]'h, s.setSp (s.sp - 1#8))) := by
  unfold pop
  split
  · exact .inl ⟨‹_›, rfl⟩
  · split
    · exact .inr (.inr ⟨‹_›, by omega, rfl⟩)
    · exact .inr (.inl ⟨by omega, rfl⟩)

/-- All `finish` can do with a next state (R13): the value, or the fault taken on the state from before. -/
theorem finish_next {s t : State} {c : Check State} (h : finish s c = .next t) :
    c = .ok t ∨ ∃ f, c = .raised f ∧ t = s.enterFault f := by
  cases c with
  | ok u => simp only [finish, Host.Outcome.next.injEq] at h; exact .inl (by rw [h])
  | raised f => simp only [finish, Host.Outcome.next.injEq] at h; exact .inr ⟨f, rfl, h.symm⟩
  | stuck f => simp [finish] at h

@[simp] theorem finish_ok (s t : State) : finish s (.ok t) = .next t := rfl
@[simp] theorem finish_raised (s : State) (f : FatalFault) : finish s (.raised f) = .next (s.enterFault f) := rfl
@[simp] theorem finish_stuck (s : State) (f : Fault) : finish s (.stuck f) = .fault f := rfl
@[simp] theorem Check.map_ok {α β : Type} (g : α → β) (a : α) : (Check.ok a).map g = .ok (g a) := rfl
@[simp] theorem Check.map_raised {α β : Type} (g : α → β) (f : FatalFault) : (Check.raised f).map g = .raised f := rfl
@[simp] theorem Check.map_stuck {α β : Type} (g : α → β) (f : Fault) : (Check.stuck f).map g = .stuck f := rfl

/-! ## V registers and PC -/

/-- Reading after a register write. -/
theorem State.readV_writeV (s : State) (x k : Nibble) (b : Byte) :
    (s.writeV x b).readV k = if k = x then b else s.readV k := by
  simp only [State.readV, State.writeV, State.setV, Vector.getElem_set, BitVec.toNat_inj]
  by_cases h : x = k
  · simp [h]
  · simp [h, Ne.symm h]

@[simp] theorem State.readV_writeV_self (s : State) (x : Nibble) (b : Byte) : (s.writeV x b).readV x = b := by
  rw [State.readV_writeV]; simp

/-- The result and then the flag (R131): VF ends as the flag, another destination as the result. -/
theorem State.readV_writeResultFlag (s : State) (x k : Nibble) (r : Byte) (c : Bool) :
    (s.writeResultFlag x r c).readV k =
      if k = vf then flagByte c else if k = x then r else s.readV k := by
  simp only [State.writeResultFlag, State.readV_writeV]

theorem toNat_flagByte (c : Bool) : (flagByte c).toNat = if c then 1 else 0 := by
  cases c <;> rfl

/-- Reading after a block load, register by register (R145). -/
theorem getElem_loadBlock (v : Vector Byte 16) (j : Nat) (bytes : List Byte) (k : Nat) (hk : k < 16) :
    (loadBlock v j bytes)[k] = if h : j ≤ k ∧ k - j < bytes.length then bytes[k - j] else v[k] := by
  induction bytes generalizing v j with
  | nil => simp [loadBlock]
  | cons b rest ih =>
    rw [loadBlock, ih]
    by_cases hj : j = k
    · subst hj
      simp
    · by_cases hlt : j < k
      · have e : k - j = (k - (j + 1)) + 1 := by omega
        simp [hj, show j ≤ k by omega, show j + 1 ≤ k by omega, e]
      · simp [hj, show ¬ j ≤ k by omega, show ¬ j + 1 ≤ k by omega]

@[simp] theorem length_blockOf (v : Vector Byte 16) (x : Nibble) : (blockOf v x).length = x.toNat + 1 := by
  have := x.isLt
  simp [blockOf]; omega

theorem getElem_blockOf (v : Vector Byte 16) (x : Nibble) (j : Nat) (h : j < (blockOf v x).length) :
    (blockOf v x)[j] = v[j]'(by rw [length_blockOf] at h; have := x.isLt; omega) := by
  simp [blockOf]

end Sys2Proof.Machine
end

