-- ==== Sys2Proof/Laws/Display.lean ====
section
/-! SUPPORT. The framebuffer and drawing (spec/44_display.md R151): one pixel after one write, and what drawing one row and a
whole sprite leaves at every pixel, apart from the order of the loops. -/

namespace Sys2Proof.Machine

/-- Reading a pixel after writing one. -/
theorem FrameBuffer.get_set (fb : FrameBuffer) (x x' : Fin 64) (y y' : Fin 32) (p : Bool) :
    FrameBuffer.get (FrameBuffer.set fb x y p) x' y' = if x' = x ∧ y' = y then p else FrameBuffer.get fb x' y' := by
  simp only [FrameBuffer.get, FrameBuffer.set, Vector.getElem_set, Fin.ext_iff]
  by_cases hy : y.val = y'.val
  · by_cases hx : x.val = x'.val
    · simp [hy, hx]
    · simp [hy, hx, Ne.symm hx]
  · simp [hy, Ne.symm hy]

/-- Two framebuffers with the same pixels are the same. -/
theorem FrameBuffer.ext_get {a b : FrameBuffer} (h : ∀ x y, FrameBuffer.get a x y = FrameBuffer.get b x y) : a = b := by
  refine Vector.ext fun j hj => Vector.ext fun k hk => ?_
  exact h ⟨k, hk⟩ ⟨j, hj⟩

@[simp] theorem FrameBuffer.get_clear (x : Fin 64) (y : Fin 32) : FrameBuffer.get FrameBuffer.clear x y = false := by
  simp [FrameBuffer.get, FrameBuffer.clear]

/-- One sprite bit (R151). -/
theorem drawPixel_get (cv : Canvas) (x x' : Fin 64) (y y' : Fin 32) (bit : Bool) :
    FrameBuffer.get (drawPixel cv x y bit).1 x' y' =
      (FrameBuffer.get cv.1 x' y' ^^ (bit && decide (x' = x ∧ y' = y))) := by
  unfold drawPixel
  cases bit with
  | false => simp
  | true =>
    simp only [if_true, FrameBuffer.get_set]
    by_cases h : x' = x ∧ y' = y
    · obtain ⟨rfl, rfl⟩ := h; simp
    · simp [h]

theorem drawPixel_coll (cv : Canvas) (x : Fin 64) (y : Fin 32) (bit : Bool) :
    (drawPixel cv x y bit).2 = (cv.2 || (bit && FrameBuffer.get cv.1 x y)) := by
  unfold drawPixel; cases bit <;> simp

/-- The sprite bit that columns `0` to `n − 1` of one row put on pixel `(x', y')`. -/
def rowBits (x0 : Nat) (y : Fin 32) (row : Byte) (n : Nat) (x' : Fin 64) (y' : Fin 32) : Bool :=
  decide (y' = y) && decide ((x'.val + (64 - x0)) % 64 < n) && row.getLsbD (7 - (x'.val + (64 - x0)) % 64)

/-- A pixel is the wrapped column `c` of a row exactly when `c` is its distance from the row's start. -/
theorem column_wraps {x0 c : Nat} (hx : x0 < 64) (hc : c < 64) (x' : Fin 64) :
    x' = Fin.ofNat 64 (x0 + c) ↔ (x'.val + (64 - x0)) % 64 = c := by
  rw [Fin.ext_iff]
  have := x'.isLt
  simp only [Fin.ofNat]
  omega

theorem row_wraps {y0 r : Nat} (hy : y0 < 32) (hr : r < 32) (y' : Fin 32) :
    y' = Fin.ofNat 32 (y0 + r) ↔ (y'.val + (32 - y0)) % 32 = r := by
  rw [Fin.ext_iff]
  have := y'.isLt
  simp only [Fin.ofNat]
  omega

/-- The first `n` columns of one row: every pixel is inverted where a set bit falls on it, and a collision is a set bit on a
pixel that was on. -/
theorem drawColumns_spec {x0 : Nat} (hx : x0 < 64) (y : Fin 32) (row : Byte) (cv : Canvas) (n : Nat) (hn : n ≤ 8) :
    (∀ x' y', FrameBuffer.get ((List.range n).foldl (drawColumn x0 y row) cv).1 x' y' =
      (FrameBuffer.get cv.1 x' y' ^^ rowBits x0 y row n x' y')) ∧
    (((List.range n).foldl (drawColumn x0 y row) cv).2 = true ↔
      cv.2 = true ∨ ∃ x' y', rowBits x0 y row n x' y' = true ∧ FrameBuffer.get cv.1 x' y' = true) := by
  induction n with
  | zero => simp [rowBits]
  | succ n ih =>
    obtain ⟨ihp, ihc⟩ := ih (by omega)
    rw [List.range_succ, List.foldl_append, List.foldl_cons, List.foldl_nil]
    generalize (List.range n).foldl (drawColumn x0 y row) cv = acc at ihp ihc
    have fresh : FrameBuffer.get acc.1 (Fin.ofNat 64 (x0 + n)) y = FrameBuffer.get cv.1 (Fin.ofNat 64 (x0 + n)) y := by
      have := (column_wraps hx (by omega : n < 64) (Fin.ofNat 64 (x0 + n))).1 rfl
      have outside : rowBits x0 y row n (Fin.ofNat 64 (x0 + n)) y = false := by unfold rowBits; rw [this]; simp
      rw [ihp, outside, Bool.xor_false]
    have split : ∀ x' y', rowBits x0 y row (n + 1) x' y' =
        (rowBits x0 y row n x' y' || (row.getLsbD (7 - n) && decide (x' = Fin.ofNat 64 (x0 + n) ∧ y' = y))) := by
      intro x' y'
      rw [Bool.eq_iff_iff]
      simp only [rowBits, Bool.and_eq_true, Bool.or_eq_true, decide_eq_true_eq, column_wraps hx (by omega : n < 64)]
      constructor
      · rintro ⟨⟨h1, h2⟩, h3⟩
        by_cases e : (x'.val + (64 - x0)) % 64 = n
        · rw [e] at h3; exact .inr ⟨h3, e, h1⟩
        · exact .inl ⟨⟨h1, by omega⟩, h3⟩
      · rintro (⟨⟨h1, h2⟩, h3⟩ | ⟨h3, e, h1⟩)
        · exact ⟨⟨h1, by omega⟩, h3⟩
        · rw [← e] at h3; exact ⟨⟨h1, by omega⟩, h3⟩
    constructor
    · intro x' y'
      rw [drawColumn, drawPixel_get, ihp, split]
      by_cases e : x' = Fin.ofNat 64 (x0 + n) ∧ y' = y
      · have hn' := (column_wraps hx (by omega : n < 64) x').1 e.1
        have : rowBits x0 y row n x' y' = false := by simp [rowBits, hn']
        rw [this]; simp
      · rw [decide_eq_false e]; simp
    · rw [drawColumn, drawPixel_coll, Bool.or_eq_true, ihc, fresh, Bool.and_eq_true]
      constructor
      · rintro ((h | ⟨x', y', h1, h2⟩) | ⟨h1, h2⟩)
        · exact .inl h
        · exact .inr ⟨x', y', by rw [split, h1, Bool.true_or], h2⟩
        · exact .inr ⟨_, _, by rw [split, h1]; simp, h2⟩
      · rintro (h | ⟨x', y', h1, h2⟩)
        · exact .inl (.inl h)
        · rw [split, Bool.or_eq_true, Bool.and_eq_true, decide_eq_true_eq] at h1
          rcases h1 with h1 | ⟨h1, rfl, rfl⟩
          · exact .inl (.inr ⟨x', y', h1, h2⟩)
          · exact .inr ⟨h1, h2⟩

/-- The sprite bit that rows `0` to `n − 1` of a list of sprite bytes put on pixel `(x', y')`. -/
def rowsBits (x0 y0 : Nat) (rows : List Byte) (x' : Fin 64) (y' : Fin 32) : Bool :=
  decide ((y'.val + (32 - y0)) % 32 < rows.length) && decide ((x'.val + (64 - x0)) % 64 < 8) &&
    (rows.getD ((y'.val + (32 - y0)) % 32) 0).getLsbD (7 - (x'.val + (64 - x0)) % 64)

/-- A whole sprite (R151): every pixel is inverted where a set bit falls on it, and a collision is a set bit on a pixel that
was on before the draw. "No screen pixel is touched twice", so the order of the loops is gone. -/
theorem drawRows_spec {x0 : Nat} (hx : x0 < 64) (y0 : Nat) (rows : List Byte) (cv : Canvas) (hy : y0 < 32)
    (hr : rows.length < 32) :
    (∀ x' y', FrameBuffer.get (drawRows x0 y0 rows cv).1 x' y' =
      (FrameBuffer.get cv.1 x' y' ^^ rowsBits x0 y0 rows x' y')) ∧
    ((drawRows x0 y0 rows cv).2 = true ↔
      cv.2 = true ∨ ∃ x' y', rowsBits x0 y0 rows x' y' = true ∧ FrameBuffer.get cv.1 x' y' = true) := by
  -- the rows are drawn from `y0 + r` on, with `r` rows already drawn
  suffices H : ∀ (rows : List Byte) (r : Nat) (cv : Canvas), r + rows.length < 32 →
      (∀ x' y', FrameBuffer.get (drawRows x0 (y0 + r) rows cv).1 x' y' =
        (FrameBuffer.get cv.1 x' y' ^^
          (decide (r ≤ (y'.val + (32 - y0)) % 32) && decide ((y'.val + (32 - y0)) % 32 < r + rows.length) &&
            decide ((x'.val + (64 - x0)) % 64 < 8) &&
            (rows.getD ((y'.val + (32 - y0)) % 32 - r) 0).getLsbD (7 - (x'.val + (64 - x0)) % 64)))) ∧
      ((drawRows x0 (y0 + r) rows cv).2 = true ↔
        cv.2 = true ∨ ∃ x' y', (decide (r ≤ (y'.val + (32 - y0)) % 32) &&
            decide ((y'.val + (32 - y0)) % 32 < r + rows.length) && decide ((x'.val + (64 - x0)) % 64 < 8) &&
            (rows.getD ((y'.val + (32 - y0)) % 32 - r) 0).getLsbD (7 - (x'.val + (64 - x0)) % 64)) = true ∧
          FrameBuffer.get cv.1 x' y' = true) by
    have := H rows 0 cv (by omega)
    simpa [rowsBits] using this
  intro rows
  induction rows with
  | nil =>
    intro r cv _
    have none_in : ∀ k, (decide (r ≤ k) && decide (k < r)) = false := by
      intro k; rw [Bool.and_eq_false_iff]; simp; omega
    simp [drawRows, none_in]
  | cons b rest ih =>
    intro r cv hlen
    rw [List.length_cons] at hlen
    obtain ⟨rp, rc⟩ := drawColumns_spec hx (Fin.ofNat 32 (y0 + r)) b cv 8 (by omega)
    obtain ⟨ip, ic⟩ := ih (r + 1) (drawRow x0 (Fin.ofNat 32 (y0 + r)) b cv) (by omega)
    have split : ∀ (x' : Fin 64) (y' : Fin 32),
        (decide (r ≤ (y'.val + (32 - y0)) % 32) && decide ((y'.val + (32 - y0)) % 32 < r + (rest.length + 1)) &&
          decide ((x'.val + (64 - x0)) % 64 < 8) &&
          ((b :: rest).getD ((y'.val + (32 - y0)) % 32 - r) 0).getLsbD (7 - (x'.val + (64 - x0)) % 64)) =
        (rowBits x0 (Fin.ofNat 32 (y0 + r)) b 8 x' y' ||
          (decide (r + 1 ≤ (y'.val + (32 - y0)) % 32) &&
            decide ((y'.val + (32 - y0)) % 32 < r + 1 + rest.length) && decide ((x'.val + (64 - x0)) % 64 < 8) &&
            (rest.getD ((y'.val + (32 - y0)) % 32 - (r + 1)) 0).getLsbD (7 - (x'.val + (64 - x0)) % 64))) := by
      intro x' y'
      unfold rowBits
      simp only [row_wraps hy (by omega : r < 32)]
      rcases Nat.lt_trichotomy ((y'.val + (32 - y0)) % 32) r with h | h | h
      · simp [show ¬ r ≤ (y'.val + (32 - y0)) % 32 by omega, show ¬ r + 1 ≤ (y'.val + (32 - y0)) % 32 by omega,
          show (y'.val + (32 - y0)) % 32 ≠ r by omega]
      · simp [h]
      · have e : (y'.val + (32 - y0)) % 32 - r = ((y'.val + (32 - y0)) % 32 - (r + 1)) + 1 := by omega
        simp [show r ≤ (y'.val + (32 - y0)) % 32 by omega, show r + 1 ≤ (y'.val + (32 - y0)) % 32 by omega,
          show (y'.val + (32 - y0)) % 32 ≠ r by omega, e, show r + (rest.length + 1) = r + 1 + rest.length by omega]
    have apart : ∀ (x' : Fin 64) (y' : Fin 32), rowBits x0 (Fin.ofNat 32 (y0 + r)) b 8 x' y' = true →
        ¬ r + 1 ≤ (y'.val + (32 - y0)) % 32 := by
      intro x' y' h
      simp only [rowBits, Bool.and_eq_true, decide_eq_true_eq, row_wraps hy (by omega : r < 32)] at h
      omega
    rw [drawRows, show y0 + r + 1 = y0 + (r + 1) by omega]
    constructor
    · intro x' y'
      rw [List.length_cons, split, ip]
      have e1 : FrameBuffer.get (drawRow x0 (Fin.ofNat 32 (y0 + r)) b cv).1 x' y' = _ := rp x' y'
      rw [e1]
      cases hb : rowBits x0 (Fin.ofNat 32 (y0 + r)) b 8 x' y' with
      | true => simp [apart x' y' hb]
      | false => simp
    · rw [ic]
      have e2 : (drawRow x0 (Fin.ofNat 32 (y0 + r)) b cv).2 = true ↔ _ := rc
      rw [e2]
      constructor
      · rintro ((h | ⟨x', y', h1, h2⟩) | ⟨x', y', h1, h2⟩)
        · exact .inl h
        · exact .inr ⟨x', y', by rw [List.length_cons, split, h1, Bool.true_or], h2⟩
        · have e1 : FrameBuffer.get (drawRow x0 (Fin.ofNat 32 (y0 + r)) b cv).1 x' y' = _ := rp x' y'
          refine .inr ⟨x', y', by rw [List.length_cons, split, h1, Bool.or_true], ?_⟩
          cases hb : rowBits x0 (Fin.ofNat 32 (y0 + r)) b 8 x' y' with
          | true => simp [apart x' y' hb] at h1
          | false => rw [e1, hb] at h2; simpa using h2
      · rintro (h | ⟨x', y', h1, h2⟩)
        · exact .inl (.inl h)
        · rw [List.length_cons, split, Bool.or_eq_true] at h1
          cases hb : rowBits x0 (Fin.ofNat 32 (y0 + r)) b 8 x' y' with
          | true => exact .inl (.inr ⟨x', y', hb, h2⟩)
          | false =>
            rw [hb] at h1
            have e1 : FrameBuffer.get (drawRow x0 (Fin.ofNat 32 (y0 + r)) b cv).1 x' y' = _ := rp x' y'
            refine .inr ⟨x', y', by simpa using h1, ?_⟩
            rw [e1, hb]; simpa using h2

end Sys2Proof.Machine
end

