-- ==== Sys2Proof/Laws/Frame.lean ====
section
/-! SUPPORT. Frames compose, and the shapes of frame that the instructions have: nothing but PC, one register and PC, the result and
the flag, one part and PC. -/

namespace Sys2Proof.Machine

theorem Frame.refl (regs : List Nibble) (parts : List Part) (s : State) : Frame regs parts s s where
  vKept _ _ := rfl
  partsKept p _ := by cases p <;> rfl

theorem Part.kept_trans {p : Part} {s t u : State} (h : p.kept s t) (h' : p.kept t u) : p.kept s u := by
  cases p <;> exact Eq.trans h' h

theorem Frame.trans {regs : List Nibble} {parts : List Part} {s t u : State} (h : Frame regs parts s t)
    (h' : Frame regs parts t u) : Frame regs parts s u where
  vKept k hk := (h'.vKept k hk).trans (h.vKept k hk)
  partsKept p hp := Part.kept_trans (h.partsKept p hp) (h'.partsKept p hp)

/-- PC is outside every frame. -/
theorem Frame.setPc {regs : List Nibble} {parts : List Part} {s t : State} (a : Addr) (h : Frame regs parts s t) :
    Frame regs parts s (t.setPc a) where
  vKept := h.vKept
  partsKept p hp := by have := h.partsKept p hp; cases p <;> exact this

theorem Frame.advance {regs : List Nibble} {parts : List Part} {s t : State} (h : Frame regs parts s t) :
    Frame regs parts s t.advance := h.setPc _

theorem Frame.setMem {regs : List Nibble} {parts : List Part} {s t : State} (m : Memory) (h : Frame regs parts s t) :
    Frame regs parts s (t.setMem m) where
  vKept := h.vKept
  partsKept p hp := by have := h.partsKept p hp; cases p <;> exact this

/-- A register write stays inside a frame that names the register. -/
theorem Frame.writeV {regs : List Nibble} {parts : List Part} {s t : State} (x : Nibble) (b : Byte)
    (h : Frame regs parts s t) (hx : x ∈ regs) : Frame regs parts s (t.writeV x b) where
  vKept k hk := by
    have hne : k ≠ x := by rintro rfl; exact hk hx
    rw [State.readV_writeV, if_neg hne, h.vKept k hk]
  partsKept p hp := by have := h.partsKept p hp; cases p <;> exact this

/-- The result and the flag stay inside a frame that names both registers. -/
theorem Frame.writeResultFlag (s : State) (x : Nibble) (r : Byte) (c : Bool) :
    Frame [x, 0xF#4] [] s (s.writeResultFlag x r c) :=
  ((Frame.refl _ _ s).writeV x r (by simp)).writeV vf _ (by simp [vf])

/-- Reading memory before and after an update of anything else. -/
theorem MemKept.of_eq {s t : State} (h : t.mem = s.mem) : MemKept s t := fun _ => by rw [h]

/-- `k` is among `V[0]` to `V[n − 1]`. -/
theorem mem_firstRegs (n : Nat) (k : Nibble) : k ∈ firstRegs n ↔ k.toNat < n := by
  simp only [firstRegs, List.mem_map, List.mem_range]
  constructor
  · rintro ⟨j, hj, rfl⟩
    rw [BitVec.toNat_ofNat]
    exact Nat.lt_of_le_of_lt (Nat.mod_le _ _) hj
  · intro h
    exact ⟨k.toNat, h, by simp⟩

end Sys2Proof.Machine
end

