-- ==== Sys2Proof/Laws/PerInstr.lean ====
section
/-! SUPPORT. Statements about every instruction as syntax, one lemma per constructor. -/

/-! ## EncodingMatchesRow: the encoder sets exactly the fixed bits of the instruction's row (spec/30_encoding.md R74) -/

namespace Sys2Proof.Laws.EncodingMatchesRow

/-- The encoded word selects the row the instruction stands for. -/
def Statement (i : Instr) : Prop := encode i &&& i.row.mask = i.row.fixed

theorem packNNN_row (f : Nibble) (a : Addr12) : packNNN f a &&& 0xF000#16 = packXNN f 0#4 0#8 := by
  rw [and_mask_family, family_packNNN]

theorem packXNN_row (f x : Nibble) (nn : Byte) : packXNN f x nn &&& 0xF000#16 = packXNN f 0#4 0#8 := by
  rw [and_mask_family, family_packXNN]

theorem packXSS_row (f x : Nibble) (nn : Byte) : packXNN f x nn &&& 0xF0FF#16 = packXNN f 0#4 nn := by
  rw [and_mask_low_byte, family_packXNN, nn_packXNN]

theorem packXYS_row (f x y n : Nibble) : packXYN f x y n &&& 0xF00F#16 = packXYN f 0#4 0#4 n := by
  rw [and_mask_low_nibble, family_packXYN, n_packXYN]

theorem packXYN_row (f x y n : Nibble) : packXYN f x y n &&& 0xF000#16 = packXNN f 0#4 0#8 := by
  rw [and_mask_family, family_packXYN]

theorem cls : Statement .cls := by unfold Statement; decide
theorem ret : Statement .ret := by unfold Statement; decide
theorem jp (nnn : Addr12) : Statement (.jp nnn) := packNNN_row 0x1 nnn
theorem call (nnn : Addr12) : Statement (.call nnn) := packNNN_row 0x2 nnn
theorem seImm (x : Nibble) (nn : Byte) : Statement (.seImm x nn) := packXNN_row 0x3 x nn
theorem sneImm (x : Nibble) (nn : Byte) : Statement (.sneImm x nn) := packXNN_row 0x4 x nn
theorem seReg (x y : Nibble) : Statement (.seReg x y) := packXYS_row 0x5 x y 0x0
theorem ldImm (x : Nibble) (nn : Byte) : Statement (.ldImm x nn) := packXNN_row 0x6 x nn
theorem addImm (x : Nibble) (nn : Byte) : Statement (.addImm x nn) := packXNN_row 0x7 x nn
theorem ldReg (x y : Nibble) : Statement (.ldReg x y) := packXYS_row 0x8 x y 0x0
theorem orReg (x y : Nibble) : Statement (.orReg x y) := packXYS_row 0x8 x y 0x1
theorem andReg (x y : Nibble) : Statement (.andReg x y) := packXYS_row 0x8 x y 0x2
theorem xorReg (x y : Nibble) : Statement (.xorReg x y) := packXYS_row 0x8 x y 0x3
theorem addReg (x y : Nibble) : Statement (.addReg x y) := packXYS_row 0x8 x y 0x4
theorem subReg (x y : Nibble) : Statement (.subReg x y) := packXYS_row 0x8 x y 0x5
theorem shr (x y : Nibble) : Statement (.shr x y) := packXYS_row 0x8 x y 0x6
theorem subn (x y : Nibble) : Statement (.subn x y) := packXYS_row 0x8 x y 0x7
theorem shl (x y : Nibble) : Statement (.shl x y) := packXYS_row 0x8 x y 0xE
theorem sneReg (x y : Nibble) : Statement (.sneReg x y) := packXYS_row 0x9 x y 0x0
theorem ldI (nnn : Addr12) : Statement (.ldI nnn) := packNNN_row 0xA nnn
theorem jpOff (nnn : Addr12) : Statement (.jpOff nnn) := packNNN_row 0xB nnn
theorem rnd (x : Nibble) (nn : Byte) : Statement (.rnd x nn) := packXNN_row 0xC x nn
theorem drw (x y n : Nibble) : Statement (.drw x y n) := packXYN_row 0xD x y n
theorem skp (x : Nibble) : Statement (.skp x) := packXSS_row 0xE x 0x9E
theorem sknp (x : Nibble) : Statement (.sknp x) := packXSS_row 0xE x 0xA1
theorem ldFromDt (x : Nibble) : Statement (.ldFromDt x) := packXSS_row 0xF x 0x07
theorem waitKey (x : Nibble) : Statement (.waitKey x) := packXSS_row 0xF x 0x0A
theorem setDt (x : Nibble) : Statement (.setDt x) := packXSS_row 0xF x 0x15
theorem setSt (x : Nibble) : Statement (.setSt x) := packXSS_row 0xF x 0x18
theorem addI (x : Nibble) : Statement (.addI x) := packXSS_row 0xF x 0x1E
theorem ldFont (x : Nibble) : Statement (.ldFont x) := packXSS_row 0xF x 0x29
theorem storeBcd (x : Nibble) : Statement (.storeBcd x) := packXSS_row 0xF x 0x33
theorem storeRegs (x : Nibble) : Statement (.storeRegs x) := packXSS_row 0xF x 0x55
theorem loadRegs (x : Nibble) : Statement (.loadRegs x) := packXSS_row 0xF x 0x65

end Sys2Proof.Laws.EncodingMatchesRow
end

