-- ==== Sys2Proof/Tests/Slice0.lean ====
section
/-! SUPPORT. Tests of the model by the vectors of spec/95_test_vectors.md (each test names its row), and a witness for every
statement of Sys2Proof/Certificates/Slice0/Obligations.lean that has hypotheses. -/

namespace Sys2Proof.Machine.Tests

/-! ## Helpers -/

/-- The reset state with some V registers set. -/
def regs (l : List (Nibble × Byte)) : State := l.foldl (fun s p => s.writeV p.1 p.2) State.reset

/-- `s` with two bytes stored at PC, the first the high byte of the instruction (R52). -/
def code (hi lo : Byte) (s : State) : State := s.setMem (Memory.setBytes s.mem s.pc.toNat [hi, lo])

/-- `f` of the next state of one step, if there is one. -/
def peek {α : Type} (s : State) (f : State → α) : Option α :=
  match step s with
  | .next t => some (f t)
  | .fault _ => none
  | .refused _ => none

/-- A `(VX, VF, PC)` view of a state. -/
def view (x : Nibble) (t : State) : Byte × Byte × Addr := (t.readV x, t.readV 0xF#4, t.pc)

/-- What V-ENC and the fault vectors look at: `RUN`, the fault code and PC. -/
def stop (t : State) : RunState × Nat × Addr := (t.run, faultCode t.fault, t.pc)

/-- One key down. -/
def oneKey (k : Nibble) : Vector Bool 16 := (setKeyState k true State.reset).key

/-- Some pixels on. -/
def pixels (l : List (Fin 64 × Fin 32)) : FrameBuffer := l.foldl (fun fb p => FrameBuffer.set fb p.1 p.2 true) FrameBuffer.clear

/-! ## Well-formedness of an instruction value: V-ENC's illegal rows, one or more for each selector of R75 -/

theorem test_illegal_family0 : legalWord 0x0000#16 = false ∧ legalWord 0x00E1#16 = false ∧ legalWord 0x0123#16 = false := by
  decide
theorem test_illegal_family5 : legalWord 0x5121#16 = false ∧ legalWord 0x5120#16 = true := by decide
theorem test_illegal_family8 : legalWord 0x8AB8#16 = false ∧ legalWord 0x8ABD#16 = false ∧ legalWord 0x8ABF#16 = false := by
  decide
theorem test_illegal_family9 : legalWord 0x912F#16 = false ∧ legalWord 0x9120#16 = true := by decide
theorem test_illegal_familyE : legalWord 0xE49F#16 = false ∧ legalWord 0xE4A0#16 = false ∧ legalWord 0xE400#16 = false := by
  decide
theorem test_illegal_familyF : legalWord 0xF000#16 = false ∧ legalWord 0xF056#16 = false ∧ legalWord 0xF0FF#16 = false := by
  decide

/-! ## Decoding: a word of every row of R74, its bits written out from the row's pattern (V-ENC) -/

theorem test_decode_flow : decode 0b0000000011100000#16 = some .cls ∧ decode 0b0000000011101110#16 = some .ret ∧
    decode 0b0001101010111100#16 = some (.jp 0xABC#12) ∧ decode 0b0010001000000000#16 = some (.call 0x200#12) ∧
    decode 0b1011001100000000#16 = some (.jpOff 0x300#12) := by decide
theorem test_decode_skips : decode 0b0011101001111111#16 = some (.seImm 0xA#4 0x7F#8) ∧
    decode 0b0100111100000000#16 = some (.sneImm 0xF#4 0x00#8) ∧ decode 0b0101000100100000#16 = some (.seReg 0x1#4 0x2#4) ∧
    decode 0b1001000100100000#16 = some (.sneReg 0x1#4 0x2#4) := by decide
theorem test_decode_immediates : decode 0b0110101000000010#16 = some (.ldImm 0xA#4 0x02#8) ∧
    decode 0b0111101000000011#16 = some (.addImm 0xA#4 0x03#8) ∧ decode 0b1100000100001111#16 = some (.rnd 0x1#4 0x0F#8) ∧
    decode 0b1010000100100011#16 = some (.ldI 0x123#12) := by decide
theorem test_decode_logic : decode 0b1000101010110000#16 = some (.ldReg 0xA#4 0xB#4) ∧
    decode 0b1000101010110001#16 = some (.orReg 0xA#4 0xB#4) ∧ decode 0b1000101010110010#16 = some (.andReg 0xA#4 0xB#4) ∧
    decode 0b1000101010110011#16 = some (.xorReg 0xA#4 0xB#4) := by decide
theorem test_decode_arithmetic : decode 0b1000101010110100#16 = some (.addReg 0xA#4 0xB#4) ∧
    decode 0b1000101010110101#16 = some (.subReg 0xA#4 0xB#4) ∧ decode 0b1000101010110110#16 = some (.shr 0xA#4 0xB#4) ∧
    decode 0b1000101010110111#16 = some (.subn 0xA#4 0xB#4) ∧ decode 0b1000101010111110#16 = some (.shl 0xA#4 0xB#4) := by
  decide
theorem test_decode_draw_and_keys : decode 0b1101000100100101#16 = some (.drw 0x1#4 0x2#4 0x5#4) ∧
    decode 0b1110010010011110#16 = some (.skp 0x4#4) ∧ decode 0b1110010010100001#16 = some (.sknp 0x4#4) ∧
    decode 0b1111000000001010#16 = some (.waitKey 0x0#4) := by decide
theorem test_decode_timers : decode 0b1111000000000111#16 = some (.ldFromDt 0x0#4) ∧
    decode 0b1111000000010101#16 = some (.setDt 0x0#4) ∧ decode 0b1111000000011000#16 = some (.setSt 0x0#4) := by decide
theorem test_decode_index : decode 0b1111000000011110#16 = some (.addI 0x0#4) ∧
    decode 0b1111000000101001#16 = some (.ldFont 0x0#4) ∧ decode 0b1111000000110011#16 = some (.storeBcd 0x0#4) ∧
    decode 0b1111000001010101#16 = some (.storeRegs 0x0#4) ∧ decode 0b1111111101100101#16 = some (.loadRegs 0xF#4) := by
  decide

/-- S14: the first byte is the high one; R70: one byte alone is no instruction. -/
theorem test_decode_bytes : decodeBytes [0x6A#8, 0x02#8, 0x7A#8] = .instr (.ldImm 0xA#4 0x02#8) [0x7A#8] ∧
    decodeBytes [0x6A#8] = .rejected .truncated ∧
    decodeBytes [0x01#8, 0x23#8] = .rejected (.invalidOpcode 0x0123#16) := by decide
theorem test_decodeTableWord : decodeTableWord 16 0x6A02 = some (.ldImm 0xA#4 0x02#8) ∧
    decodeTableWord 16 0x00E0 = some .cls ∧ decodeTableWord 16 0x5121 = none := by decide
theorem test_withFetchWord : peek (State.reset.withFetchWord 16 0x6A02) (view 0xA#4) = some (0x02#8, 0x00#8, 0x0202#16) ∧
    peek ((State.reset.setPc 0x1000#16).withFetchWord 16 0x6A02) (view 0xA#4) = some (0x02#8, 0x00#8, 0x0202#16) := by
  decide

/-! ## V-ALU (the row number in the name's last part) -/

theorem test_ldImm_1 : peek (code 0x6A 0x02 State.reset) (view 0xA#4) = some (0x02#8, 0x00#8, 0x0202#16) := by decide
theorem test_ldImm_2 : peek (code 0x6F 0xFF State.reset) (view 0xF#4) = some (0xFF#8, 0xFF#8, 0x0202#16) := by decide
theorem test_addImm_3 : peek (code 0x73 0x01 (regs [(3, 0xFF)])) (view 3) = some (0x00#8, 0x00#8, 0x0202#16) := by decide
theorem test_addImm_5 : peek (code 0x7F 0x02 (regs [(0xF, 0xFF)])) (view 0xF) = some (0x01#8, 0x01#8, 0x0202#16) := by decide
theorem test_ldReg_6 : peek (code 0x80 0x10 (regs [(1, 0x33)])) (view 0) = some (0x33#8, 0x00#8, 0x0202#16) := by decide
theorem test_orReg_7 : peek (code 0x80 0x11 (regs [(0, 0xF0), (1, 0x0F), (0xF, 0x5A)])) (view 0) =
    some (0xFF#8, 0x5A#8, 0x0202#16) := by decide
theorem test_andReg_8 : peek (code 0x80 0x12 (regs [(0, 0xF3), (1, 0x3F)])) (view 0) = some (0x33#8, 0x00#8, 0x0202#16) := by
  decide
theorem test_xorReg_9 : peek (code 0x80 0x13 (regs [(0, 0xFF), (1, 0x0F)])) (view 0) = some (0xF0#8, 0x00#8, 0x0202#16) := by
  decide
theorem test_xorReg_10 : peek (code 0x80 0x03 (regs [(0, 0xAB)])) (view 0) = some (0x00#8, 0x00#8, 0x0202#16) := by decide
theorem test_addReg_11 : peek (code 0x81 0x24 (regs [(1, 0xC8), (2, 0x64)])) (view 1) = some (0x2C#8, 0x01#8, 0x0202#16) := by
  decide
theorem test_addReg_19 : peek (code 0x8F 0xF4 (regs [(0xF, 0x40)])) (view 0xF) = some (0x00#8, 0x00#8, 0x0202#16) := by decide
theorem test_subReg_20 : peek (code 0x81 0x25 (regs [(1, 0x05), (2, 0x07)])) (view 1) = some (0xFE#8, 0x00#8, 0x0202#16) := by
  decide
theorem test_subReg_27 : peek (code 0x80 0xF5 (regs [(0, 0x10), (0xF, 0x01)])) (view 0) = some (0x0F#8, 0x01#8, 0x0202#16) := by
  decide
theorem test_shr_28 : peek (code 0x83 0x46 (regs [(3, 0x07), (4, 0xF0)])) (view 3) = some (0x03#8, 0x01#8, 0x0202#16) := by
  decide
theorem test_shr_33 : peek (code 0x8F 0x06 (regs [(0xF, 0x02)])) (view 0xF) = some (0x00#8, 0x00#8, 0x0202#16) := by decide
theorem test_subn_34 : peek (code 0x81 0x27 (regs [(1, 0x05), (2, 0x07)])) (view 1) = some (0x02#8, 0x01#8, 0x0202#16) := by
  decide
theorem test_subn_36 : peek (code 0x81 0x27 (regs [(1, 0x09), (2, 0x09)])) (view 1) = some (0x00#8, 0x01#8, 0x0202#16) := by
  decide
theorem test_shl_37 : peek (code 0x83 0x4E (regs [(3, 0x81)])) (view 3) = some (0x02#8, 0x01#8, 0x0202#16) := by decide
theorem test_shl_42 : peek (code 0x8F 0x0E (regs [(0xF, 0x40)])) (view 0xF) = some (0x00#8, 0x00#8, 0x0202#16) := by decide

/-- V-ALU 43, on the drawn byte the vector gives; the byte of a step is free. -/
theorem test_rnd_43 : randomInto 0xA7#8 1#4 0x0F#8 State.reset = .next ((State.reset.writeV 1#4 0x07#8).setPc 0x0202#16) :=
  rfl
/-- V-ALU 44, whatever byte is drawn. -/
theorem test_rnd_44 (r : Byte) : ∃ t, randomInto r 1#4 0x00#8 State.reset = .next t ∧ view 1#4 t = (0x00#8, 0x00#8, 0x0202#16) := by
  refine ⟨_, rfl, ?_⟩
  rw [BitVec.and_comm, BitVec.zero_and]
  decide

/-- The other alternatives of the three policies: V-ALU 28, V-CTL 7 and V-IDX 18, "instead" columns. -/
theorem test_policy_alternatives :
    (match shiftRight .vyIntoVx 3#4 4#4 (regs [(3, 0x07), (4, 0xF0)]) with
      | .next t => some (view 3#4 t)
      | _ => none) = some (0x78#8, 0x00#8, 0x0202#16) ∧
    (match jumpOffset .vx 0x300#12 (regs [(0, 0x04), (3, 0x10)]) with
      | .next t => some t.pc
      | _ => none) = some 0x0310#16 ∧
    (match storeBlock .iIncrement 2#4 (State.reset.setI 0x0400#16) with
      | .next t => some t.i
      | _ => none) = some 0x0403#16 := by decide

/-! ## V-CTL -/

theorem test_jp_1 : peek (code 0x1A 0xBC State.reset) (·.pc) = some 0x0ABC#16 := by decide
/-- S13: `1FFF` does not fault itself. -/
theorem test_jp_S13 : peek (code 0x1F 0xFF State.reset) stop = some (.running, 0, 0x0FFF#16) := by decide
theorem test_call_4 : peek (code 0x2A 0xBC (State.reset.setPc 0x0FFE#16)) (fun t => (t.stack[0], t.sp, t.pc)) =
    some (0x1000#16, 1#8, 0x0ABC#16) := by decide
/-- P5, its 17th step. -/
theorem test_call_P5 : peek (code 0x22 0x00 (State.reset.setSp 16#8)) (fun t => (stop t, t.sp)) =
    some ((.halted, 3, 0x0200#16), 16#8) := by decide
theorem test_ret_5 : peek (code 0x00 0xEE (((State.reset.setPc 0x020C#16).setSp 1#8).setStack (State.reset.stack.set 0 0x0206#16)))
    (fun t => (t.stack[0], t.sp, t.pc)) = some (0x0206#16, 0#8, 0x0206#16) := by decide
theorem test_ret_6 : peek (code 0x00 0xEE State.reset) (fun t => (stop t, t.sp)) = some ((.halted, 4, 0x0200#16), 0#8) := by
  decide
theorem test_jpOff_7 : peek (code 0xB3 0x00 (regs [(0, 0x04), (3, 0x10)])) (·.pc) = some 0x0304#16 := by decide
theorem test_jpOff_8 : peek (code 0xBF 0xFF (regs [(0, 0xFF)])) stop = some (.running, 0, 0x10FE#16) := by decide
theorem test_seImm_10 : peek (code 0x30 0x00 ((regs [(0, 0x01)]).setPc 0x0208#16)) (·.pc) = some 0x020A#16 := by decide
theorem test_seImm_19 : peek (code 0x30 0x00 (State.reset.setPc 0x0FFE#16)) stop = some (.running, 0, 0x1002#16) := by decide
theorem test_sneImm_11 : peek (code 0x4A 0x05 (regs [(0xA, 0x05)])) (·.pc) = some 0x0202#16 := by decide
theorem test_sneImm_12 : peek (code 0x4A 0x05 (regs [(0xA, 0x06)])) (·.pc) = some 0x0204#16 := by decide
theorem test_seReg_13 : peek (code 0x51 0x20 (regs [(1, 0x7F), (2, 0x7F)])) (·.pc) = some 0x0204#16 := by decide
theorem test_seReg_14 : peek (code 0x51 0x20 (regs [(1, 0x7F), (2, 0x80)])) (·.pc) = some 0x0202#16 := by decide
theorem test_sneReg_15 : peek (code 0x91 0x20 (regs [(1, 0x7F), (2, 0x80)])) (·.pc) = some 0x0204#16 := by decide
theorem test_sneReg_16 : peek (code 0x91 0x20 (regs [(1, 0x7F), (2, 0x7F)])) (·.pc) = some 0x0202#16 := by decide

/-! ## Fetch and decode faults (S13, V-ENC, V-CTL 21) -/

theorem test_fetch_bound : peek (State.reset.setPc 0x0FFF#16) stop = some (.halted, 1, 0x0FFF#16) := by decide
theorem test_invalid_opcode : peek State.reset stop = some (.halted, 2, 0x0200#16) := by decide
theorem test_odd_pc_21 : peek (code 0x6A 0x55 (State.reset.setPc 0x0203#16)) (view 0xA#4) =
    some (0x55#8, 0x00#8, 0x0205#16) := by decide

/-! ## V-IDX -/

theorem test_ldI_1 : peek (code 0xA1 0x23 State.reset) (fun t => (t.i, t.pc)) = some (0x0123#16, 0x0202#16) := by decide
theorem test_addI_3 : peek (code 0xF0 0x1E ((regs [(0, 0x01)]).setI 0x0FFF#16)) (fun t => (t.i, t.readV 0xF#4)) =
    some (0x1000#16, 0x00#8) := by decide
theorem test_addI_4 : peek (code 0xF0 0x1E ((regs [(0, 0x01)]).setI 0xFFFF#16)) (fun t => (t.i, t.pc)) =
    some (0x0000#16, 0x0202#16) := by decide
theorem test_ldFont_7 : peek (code 0xF0 0x29 (regs [(0, 0x0F)])) (fun t => (t.i, t.pc)) = some (0x009B#16, 0x0202#16) := by decide
theorem test_ldFont_8 : peek (code 0xF0 0x29 (regs [(0, 0x1A)])) (fun t => (t.i, t.pc)) = some (0x0082#16, 0x0202#16) := by decide
theorem test_storeBcd_14 : peek (code 0xF0 0x33 ((regs [(0, 0x7B)]).setI 0x0FFD#16))
    (fun t => (Memory.getBytes t.mem 0xFFD 3, t.pc)) = some ([0x01#8, 0x02#8, 0x03#8], 0x0202#16) := by decide
theorem test_storeBcd_17 : peek (code 0xF0 0x33 ((regs [(0, 0x7B)]).setI 0x01FD#16))
    (fun t => (stop t, Memory.getBytes t.mem 0x1FD 3)) = some ((.halted, 6, 0x0200#16), [0#8, 0#8, 0#8]) := by decide
theorem test_storeRegs_18 : peek (code 0xF2 0x55 ((regs [(0, 0x11), (1, 0x22), (2, 0x33)]).setI 0x0400#16))
    (fun t => (Memory.getBytes t.mem 0x400 4, t.i)) = some ([0x11#8, 0x22#8, 0x33#8, 0x00#8], 0x0400#16) := by decide
theorem test_storeRegs_20 : peek (code 0xFF 0x55 ((regs [(0, 0xA0)]).setI 0x0FF1#16))
    (fun t => (stop t, Memory.get t.mem 0xFF1)) = some ((.halted, 5, 0x0200#16), 0#8) := by decide
theorem test_loadRegs_23 : peek (code 0xF4 0x65 (State.reset.setI 0x0050#16)) (fun t => (blockOf t.v 5#4, t.i)) =
    some ([0xF0#8, 0x90#8, 0x90#8, 0x90#8, 0xF0#8, 0x00#8], 0x0050#16) := by decide
theorem test_loadRegs_25 : peek (code 0xFF 0x65 ((regs [(0, 0x77)]).setI 0x0FF1#16)) (fun t => (stop t, t.readV 0#4)) =
    some ((.halted, 5, 0x0200#16), 0x77#8) := by decide

/-! ## V-DSP -/

theorem test_drw_2 : peek (code 0xD1 0x01 (((regs [(1, 0x02)]).setI 0x0050#16).setFb (pixels [(0, 0), (1, 0), (2, 0), (3, 0)])))
    (fun t => ([0, 1, 2, 3, 4, 5, 6].map fun x => FrameBuffer.get t.fb x 0, t.readV 0xF#4, t.pc)) =
    some ([true, true, false, false, true, true, false], 0x01#8, 0x0202#16) := by decide
/-- V-DSP 8: the glyph A at (62, 30) wraps on both axes, as P4 lists the pixels; the old VF is the column. -/
theorem test_drw_8 : peek (code 0xDF 0x25 ((regs [(0xF, 0x3E), (2, 0x1E)]).setI 0x0082#16))
    (fun t => ([(62, 30), (63, 30), (0, 30), (1, 30), (62, 31), (1, 31), (63, 0), (62, 1), (1, 2), (63, 31), (2, 30), (0, 1)].map
      fun p : Fin 64 × Fin 32 => FrameBuffer.get t.fb p.1 p.2, t.readV 0xF#4)) =
    some ([true, true, true, true, true, true, true, true, true, false, false, false], 0x00#8) := by decide
theorem test_cls_7 : peek (code 0x00 0xE0 ((regs [(0xF, 0x5A)]).setFb (pixels [(0, 0), (63, 31)])))
    (fun t => (t.fb, view 0xF#4 t)) = some (FrameBuffer.clear, (0x5A#8, 0x5A#8, 0x0202#16)) := by decide

/-! ## V-KEY -/

theorem test_skp_2 : peek (code 0xE4 0x9E ((regs [(4, 0x07)]).setPc 0x0210#16)) (·.pc) = some 0x0212#16 := by decide
theorem test_skp_3 : peek (code 0xE4 0x9E (((regs [(4, 0x17)]).setPc 0x0210#16).setKey (oneKey 7))) (·.pc) = some 0x0214#16 := by
  decide
theorem test_sknp_4 : peek (code 0xE4 0xA1 ((regs [(4, 0x07)]).setPc 0x0210#16)) (·.pc) = some 0x0214#16 := by decide
theorem test_sknp_5 : peek (code 0xE4 0xA1 (((regs [(4, 0x07)]).setPc 0x0210#16).setKey (oneKey 7))) (·.pc) = some 0x0212#16 := by
  decide
theorem test_ldFromDt_6 : peek (code 0xF5 0x07 (State.reset.setDt 0x3C#8)) (view 5#4) = some (0x3C#8, 0x00#8, 0x0202#16) := by
  decide
theorem test_setDt_7 : peek (code 0xF5 0x15 (regs [(5, 0x3C)])) (fun t => (t.dt, t.st)) = some (0x3C#8, 0x00#8) := by decide
theorem test_setSt_8 : peek (code 0xF5 0x18 (regs [(5, 0x02)])) (fun t => (t.st, soundActive t, t.dt)) =
    some (0x02#8, true, 0x00#8) := by decide
/-- P6, event 2: a key already down does not end the wait. -/
theorem test_waitKey_P6 : peek (code 0xF3 0x0A (State.reset.setKey (oneKey 5))) (fun t => (t.run, t.waitx, t.kprev, view 3#4 t)) =
    some (.waitingForKey, 3#4, oneKey 5, (0x00#8, 0x00#8, 0x0202#16)) := by decide
/-- P6, event 7: of the keys 2 and 9 the lowest wins, and no instruction runs. -/
theorem test_keyWaitPoll_P6 : peek (((State.reset.setRun .waitingForKey).setWaitx 3#4).setKey
      (setKeyState 9#4 true (setKeyState 2#4 true State.reset)).key) (fun t => (t.run, view 3#4 t)) =
    some (.running, (0x02#8, 0x00#8, 0x0200#16)) := by decide

/-! ## Events -/

/-- S9 and V-KEY 12. -/
theorem test_tickTimers : tickTimers ((State.reset.setDt 2#8).setSt 1#8) = State.reset.setDt 1#8 ∧
    tickTimers State.reset = State.reset ∧
    tickTimers ((State.reset.enterFault .invalidOpcode).setDt 5#8) = (State.reset.enterFault .invalidOpcode).setDt 4#8 := by
  decide
/-- S12, on a short ROM. -/
theorem test_loadRom : loadRom [0x6A#8, 0x02#8] State.reset = (.ok, code 0x6A 0x02 State.reset) ∧
    loadRom [] State.reset = (.ok, State.reset) := by decide
/-- R35: a byte written back to its reset contents leaves equal memories equal. -/
theorem test_memory_canonical : Memory.set (Memory.set State.reset.mem 0x300 0x55#8) 0x300 0x00#8 = State.reset.mem := by decide

/-! ## Witnesses: the hypotheses of the statements hold together somewhere, each clause at the edge of its range -/

theorem witness_EncodeOfDecodedWord : decode 0x8AB5#16 = some (.subReg 0xA#4 0xB#4) := by decide
theorem witness_DecodeSelectsTheOnlyRow : decode 0xFF65#16 = some (.loadRegs 0xF#4) ∧
    (⟨"FX65", 0xF065, 0xF0FF⟩ : EncodingRow) ∈ encodingRows ∧ 0xFF65#16 &&& 0xF0FF#16 = 0xF065#16 := by decide

/-- The highest address an instruction can be fetched from. -/
def topCode (hi lo : Byte) : State := code hi lo (State.reset.setPc 0x0FFE#16)

theorem witness_StepRunsTheDecodedInstruction : (topCode 0x6A 0x02).run = .running ∧ (topCode 0x6A 0x02).pc.toNat + 1 ≤ 0xFFF ∧
    (0x6A02#16).toNat = wordAtPc (topCode 0x6A 0x02) ∧ decode 0x6A02#16 = some (.ldImm 0xA#4 0x02#8) := by decide
theorem witness_FetchFault : (State.reset.setPc 0x0FFF#16).run = .running ∧ (State.reset.setPc 0x0FFF#16).pc.toNat + 1 > 0xFFF := by
  decide
theorem witness_DecodeFault : (topCode 0x01 0x23).run = .running ∧ (topCode 0x01 0x23).pc.toNat + 1 ≤ 0xFFF ∧
    (0x0123#16).toNat = wordAtPc (topCode 0x01 0x23) ∧ decode 0x0123#16 = none := by decide

/-- A wait with one key down that was down before, and with one that was not. -/
def held (k : Nibble) : State := ((State.reset.setRun .waitingForKey).setKey (oneKey k)).setKprev (oneKey k)
def pressed (k : Nibble) : State := (State.reset.setRun .waitingForKey).setKey (oneKey k)

theorem witness_WaitingWithoutPress : (held 5#4).run = .waitingForKey ∧
    ∀ k, ¬(keyAt (held 5#4).key k = true ∧ keyAt (held 5#4).kprev k = false) := by decide
theorem witness_WaitingWithPress_lowest : (pressed 0#4).run = .waitingForKey ∧ keyAt (pressed 0#4).key 0#4 = true ∧
    keyAt (pressed 0#4).kprev 0#4 = false ∧
    ∀ k : Nibble, k.toNat < (0#4).toNat → ¬(keyAt (pressed 0#4).key k = true ∧ keyAt (pressed 0#4).kprev k = false) := by decide
theorem witness_WaitingWithPress_highest : (pressed 0xF#4).run = .waitingForKey ∧ keyAt (pressed 0xF#4).key 0xF#4 = true ∧
    keyAt (pressed 0xF#4).kprev 0xF#4 = false ∧
    ∀ k : Nibble, k.toNat < (0xF#4).toNat → ¬(keyAt (pressed 0xF#4).key k = true ∧ keyAt (pressed 0xF#4).kprev k = false) := by
  decide
theorem witness_KeyWaitLastsUntilAPress : (held 5#4).run = .waitingForKey ∧
    ∀ k, keyAt (held 5#4).key k = true → keyAt (held 5#4).kprev k = true := by decide

theorem witness_Return : (State.reset.setSp 0#8).sp.toNat = 0 ∧ (State.reset.setSp 1#8).sp.toNat = (0#4).toNat + 1 ∧
    (State.reset.setSp 16#8).sp.toNat = (15#4).toNat + 1 := by decide
theorem witness_Call : (State.reset.setSp 16#8).sp.toNat = 16 ∧ (State.reset.setSp 0#8).sp.toNat = (0#4).toNat ∧
    (State.reset.setSp 15#8).sp.toNat = (15#4).toNat := by decide
theorem witness_StackPointerAboveTheDepthStops : 16 < (State.reset.setSp 17#8).sp.toNat ∧ 16 < (State.reset.setSp 255#8).sp.toNat := by
  decide
theorem witness_JumpToItself : (topCode 0x1F 0xFE).run = .running ∧ (topCode 0x1F 0xFE).pc.toNat = (0xFFE#12).toNat ∧
    (0xFFE#12).toNat + 1 ≤ 0xFFF ∧ wordAtPc (topCode 0x1F 0xFE) = 0x1000 + (0xFFE#12).toNat := by decide
theorem witness_SkipEncodings : OpWord.family 0x3A7F#16 = 0x3#4 ∧ OpWord.family 0x4F00#16 = 0x4#4 ∧
    OpWord.family 0x5120#16 = 0x5#4 ∧ OpWord.n 0x5120#16 = 0x0#4 ∧ OpWord.family 0x5121#16 = 0x5#4 ∧ OpWord.n 0x5121#16 ≠ 0x0#4 ∧
    OpWord.family 0x9120#16 = 0x9#4 ∧ OpWord.n 0x912F#16 ≠ 0x0#4 := by decide
theorem witness_ReturnAfterCallResumes : (State.reset.setSp 0#8).sp.toNat < 16 ∧ (State.reset.setSp 15#8).sp.toNat < 16 ∧
    (15#4).toNat ≠ (State.reset.setSp 0#8).sp.toNat ∧ (0#4).toNat ≠ (State.reset.setSp 15#8).sp.toNat := by decide

theorem witness_AluEncodings : OpWord.family 0x6A02#16 = 0x6#4 ∧ OpWord.family 0x7A03#16 = 0x7#4 ∧ OpWord.family 0xA123#16 = 0xA#4 ∧
    OpWord.family 0x8010#16 = 0x8#4 ∧ OpWord.n 0x8010#16 = 0x0#4 ∧ OpWord.n 0x8124#16 = 0x4#4 ∧ OpWord.n 0x8125#16 = 0x5#4 ∧
    OpWord.n 0x8127#16 = 0x7#4 := by decide
theorem witness_ResultRegister : (0x0#4 : Nibble) ≠ 0xF#4 ∧ (0xE#4 : Nibble) ≠ 0xF#4 := by decide
theorem witness_RandomByteIsMasked : (0x0F#8).getLsbD 4 = false ∧ (0x0F#8).getLsbD 7 = false := by decide
theorem witness_PolicyAlternatives : (0xF#4).toNat = (0xF00#12).toNat / 256 ∧ (0x0#4).toNat = (0x0FF#12).toNat / 256 ∧
    (State.reset.setI 0x0FF0#16).i.toNat + (0xF#4).toNat ≤ 0xFFF ∧ 0x200 ≤ (State.reset.setI 0x0200#16).i.toNat ∧
    (State.reset.setI 0x0200#16).i.toNat + (0xF#4).toNat ≤ 0xFFF ∧ (State.reset.setI 0x0000#16).i.toNat + (0x0#4).toNat ≤ 0xFFF := by
  decide

theorem witness_Bcd : (State.reset.setI 0x0FFE#16).i.toNat + 2 > 0xFFF ∧
    ((State.reset.setI 0x01FF#16).i.toNat + 2 ≤ 0xFFF ∧ (State.reset.setI 0x01FF#16).i.toNat < 0x200) ∧
    ((State.reset.setI 0x0FFD#16).i.toNat + 2 ≤ 0xFFF ∧ 0x200 ≤ (State.reset.setI 0x0FFD#16).i.toNat) ∧
    ((State.reset.setI 0x0200#16).i.toNat + 2 ≤ 0xFFF ∧ 0x200 ≤ (State.reset.setI 0x0200#16).i.toNat) := by decide
theorem witness_StoreRegisters : (State.reset.setI 0x0FF1#16).i.toNat + (0xF#4).toNat > 0xFFF ∧
    ((State.reset.setI 0x01FF#16).i.toNat + (0xF#4).toNat ≤ 0xFFF ∧ (State.reset.setI 0x01FF#16).i.toNat < 0x200) ∧
    ((State.reset.setI 0x0FF0#16).i.toNat + (0xF#4).toNat ≤ 0xFFF ∧ 0x200 ≤ (State.reset.setI 0x0FF0#16).i.toNat) ∧
    ((State.reset.setI 0x0200#16).i.toNat + (0x0#4).toNat ≤ 0xFFF ∧ 0x200 ≤ (State.reset.setI 0x0200#16).i.toNat) := by decide
theorem witness_LoadRegisters : (State.reset.setI 0x1000#16).i.toNat + (0x0#4).toNat > 0xFFF ∧
    (State.reset.setI 0x0FF0#16).i.toNat + (0xF#4).toNat ≤ 0xFFF ∧ (State.reset.setI 0x0000#16).i.toNat + (0xF#4).toNat ≤ 0xFFF := by
  decide
theorem witness_StoreThenLoad : (State.reset.setI 0x0200#16).i.toNat + (0xF#4).toNat ≤ 0xFFF ∧
    0x200 ≤ (State.reset.setI 0x0200#16).i.toNat := by decide

/-- P8: the registers that hold a jump, about to be stored where it will be fetched. -/
def selfModifying : State := (regs [(0, 0x12), (1, 0x08)]).setI 0x0208#16

theorem witness_StoredBytesAreFetched : selfModifying.run = .running ∧ 1 ≤ (1#4).toNat ∧
    selfModifying.i.toNat + (1#4).toNat ≤ 0xFFF ∧ 0x200 ≤ selfModifying.i.toNat ∧
    (0x1208#16).toNat = 256 * (selfModifying.readV 0x0#4).toNat + (selfModifying.readV 0x1#4).toNat ∧
    decode 0x1208#16 = some (.jp 0x208#12) := by decide
theorem witness_BytesBelowRomBaseAreKept : ∃ t, step selfModifying = .next t := ⟨_, rfl⟩

theorem witness_Draw : (0 < (1#4).toNat ∧ (State.reset.setI 0x1000#16).i.toNat + (1#4).toNat - 1 > 0xFFF) ∧
    (0 < (15#4).toNat ∧ (State.reset.setI 0x0FF2#16).i.toNat + (15#4).toNat - 1 > 0xFFF) ∧
    (State.reset.setI 0x0FFF#16).i.toNat + (1#4).toNat - 1 ≤ 0xFFF ∧
    (State.reset.setI 0x0FF1#16).i.toNat + (15#4).toNat - 1 ≤ 0xFFF ∧ (0#4).toNat = 0 := by decide
theorem witness_DrawCollides : spriteBit [] 0x050 62 31 1 1 31 = true ∧ FrameBuffer.get (pixels [(1, 31)]) 1 31 = true := by decide
theorem witness_DrawMisses : spriteBit [] 0x050 62 31 1 1 31 = true ∧ ∀ px py, spriteBit [] 0x050 62 31 1 px py = true →
    FrameBuffer.get FrameBuffer.clear px py = false := by
  refine ⟨by decide, fun px py _ => ?_⟩
  simp [FrameBuffer.get, FrameBuffer.clear]
theorem witness_DrawTwice : (0xE#4 : Nibble) ≠ 0xF#4 ∧ (0x0#4 : Nibble) ≠ 0xF#4 ∧
    (State.reset.setI 0x0050#16).i.toNat + (5#4).toNat - 1 ≤ 0xFFF := by decide

theorem witness_KeySkips : (0x7#4).toNat = ((regs [(4, 0x17)]).readV 4#4).toNat % 16 := by decide
theorem witness_SetKeyState : (0x3#4 : Nibble) ≠ 0x4#4 := by decide
theorem witness_LoadRom : (List.replicate 3585 0#8).length > 3584 ∧ (List.replicate 3584 0#8).length ≤ 3584 ∧
    ([] : List Byte).length ≤ 3584 ∧ 3583 < (List.replicate 3584 0#8).length := by
  simp only [List.length_replicate, List.length_nil]; decide
theorem witness_HostEvents : (∀ rng, Event.tickTimers ≠ .reset rng) ∧ Event.tickTimers ≠ .step ∧
    ∃ t r, handle .tickTimers State.reset = .next (t, r) := ⟨by simp, by simp, _, _, rfl⟩
theorem witness_ResetMemory : (0x04F : Nat) < 0x050 ∧ 0x0A0 ≤ (0x0A0 : Nat) := by decide

theorem witness_Invariant : Invariant (((State.reset.setSp 16#8).setPc 0x10FE#16).setMem [(0x200, 0x6A#8)]) :=
  ⟨by decide, by decide, by decide, by decide, by decide, by decide⟩
theorem witness_StepKeepsTheInvariant : Invariant ((State.reset.setPc 0x10FE#16)) ∧ ∃ t, step (State.reset.setPc 0x10FE#16) = .next t :=
  ⟨⟨by decide, by decide, by decide, by decide, by decide, by decide⟩, _, rfl⟩

theorem witness_FaultsArePrecise : State.reset.run ≠ .halted ∧ ∃ t, step State.reset = .next t ∧ t.run = .halted :=
  ⟨by decide, _, rfl, rfl⟩
theorem witness_ExecHalts : State.reset.run = .running ∧ (State.reset.setSp 16#8).sp.toNat ≤ 16 ∧
    raisedBy (.call 0x200#12) (State.reset.setSp 16#8) = some .stackOverflow ∧
    raisedBy .ret State.reset = some .stackUnderflow ∧
    raisedBy (.storeBcd 0#4) (State.reset.setI 0x0FFE#16) = some .memoryOutOfBounds ∧
    raisedBy (.storeRegs 0#4) (State.reset.setI 0x01FF#16) = some .writeProtected ∧
    raisedBy .cls State.reset = none ∧ raisedBy (.storeBcd 0#4) (State.reset.setI 0x0200#16) = none := by decide
theorem witness_OnlyResetLeavesHalted : (State.reset.enterFault .invalidOpcode).run = .halted ∧
    (∀ rng, Event.step ≠ .reset rng) ∧ (∀ rng, Event.tickTimers ≠ .reset rng) ∧
    (∃ t r, handle .step (State.reset.enterFault .invalidOpcode) = .next (t, r)) ∧
    ∃ t r, handle .tickTimers (State.reset.enterFault .invalidOpcode) = .next (t, r) :=
  ⟨rfl, by simp, by simp, ⟨_, _, rfl⟩, _, _, rfl⟩
theorem witness_RunStateTransitions : peek (code 0xF3 0x0A State.reset) (·.run) = some .waitingForKey ∧
    peek (pressed 3#4) (·.run) = some .running ∧ peek (held 3#4) (·.run) = some .waitingForKey ∧
    peek (State.reset.enterFault .invalidOpcode) (·.run) = some .halted := by decide

/-- Each "if this piece changed" of OnlyTheNamedInstructionsChangeEachPart happens. -/
theorem witness_EachPartChanges :
    peek (code 0xF0 0x15 (regs [(0, 1)])) (fun t => decide (t.dt ≠ State.reset.dt)) = some true ∧
    peek (code 0xF0 0x18 (regs [(0, 1)])) (fun t => decide (t.st ≠ State.reset.st)) = some true ∧
    peek (code 0xD0 0x01 (State.reset.setI 0x050#16)) (fun t => decide (t.fb ≠ State.reset.fb)) = some true ∧
    peek (code 0xF0 0x33 ((regs [(0, 1)]).setI 0x300#16)) (fun t => Memory.get t.mem 0x302) = some 1#8 ∧
    peek (code 0xA1 0x23 State.reset) (fun t => decide (t.i ≠ State.reset.i)) = some true ∧
    peek (code 0x22 0x00 State.reset) (fun t => decide (t.sp ≠ State.reset.sp)) = some true ∧
    peek (code 0xF3 0x0A State.reset) (fun t => (t.waitx, t.run)) = some (3#4, .waitingForKey) ∧
    peek (code 0x00 0xEE State.reset) (fun t => (t.run, t.fault)) = some (.halted, some .stackUnderflow) := by decide
theorem witness_RngChanges (h : (Config.rngNext 0).2 ≠ 0) : ∃ t, exec (.rnd 0#4 0#8) State.reset = .next t ∧ t.rng ≠ State.reset.rng :=
  ⟨_, rfl, h⟩
theorem witness_RegisterIsWritten : peek (code 0x6A 0x02 State.reset) (fun t => decide (t.readV 0xA#4 ≠ State.reset.readV 0xA#4)) =
    some true := by decide
theorem witness_TheFlagIsZeroOrOne : Instr.drw 0#4 0#4 1#4 ∈ [Instr.addReg 0#4 0#4, .subReg 0#4 0#4, .shr 0#4 0#4, .subn 0#4 0#4,
      .shl 0#4 0#4, .drw 0#4 0#4 1#4] ∧ State.reset.run = .running ∧
    ∃ t, exec (.drw 0#4 0#4 1#4) State.reset = .next t ∧ t.run = .running := ⟨by decide, rfl, _, rfl, rfl⟩
theorem witness_RandomState : (∀ x nn, Instr.cls ≠ .rnd x nn) ∧ ∃ t, exec .cls State.reset = .next t := ⟨by simp, _, rfl⟩

end Sys2Proof.Machine.Tests
end

section
/-! PROOFS. The policy alternatives of spec/00_scope.md R6 (O24). Each shared operation is characterised once for every value
of its policy, decided or not; the alternatives are special cases. -/

namespace Sys2Proof.Machine

/-! ## A result and its flag -/

/-- R131: where the result, the flag, PC and everything else stand after a flag-setting instruction. -/
theorem writeResultFlag_advance_spec (s : State) (x : Nibble) (r : Byte) (c : Bool) :
    (x ≠ 0xF#4 → (s.writeResultFlag x r c).advance.readV x = r) ∧
    (s.writeResultFlag x r c).advance.readV 0xF#4 = flagByte c ∧
    (s.writeResultFlag x r c).advance.pc = s.pc + 2#16 ∧
    Frame [x, 0xF#4] [] s (s.writeResultFlag x r c).advance ∧
    MemKept s (s.writeResultFlag x r c).advance := by
  refine ⟨fun hx => ?_, ?_, rfl, (Frame.writeResultFlag s x r c).advance, .of_eq rfl⟩
  · rw [State.readV_advance, State.readV_writeResultFlag, if_neg hx, if_pos rfl]
  · rw [State.readV_advance, State.readV_writeResultFlag, if_pos rfl]

/-! ## The shifts -/

theorem toNat_flagByte_bitOutRight (b : Byte) : (flagByte (bitOutRight b)).toNat = b.toNat % 2 := by
  rw [toNat_flagByte, bitOutRight, BitVec.getLsbD, Nat.testBit_zero]
  rcases Nat.mod_two_eq_zero_or_one b.toNat with h | h <;> simp [h]

theorem toNat_flagByte_bitOutLeft (b : Byte) : (flagByte (bitOutLeft b)).toNat = b.toNat / 128 := by
  have hmsb : bitOutLeft b = decide (128 ≤ b.toNat) := BitVec.msb_eq_decide b
  have hlt : b.toNat < 256 := b.isLt
  simp only [toNat_flagByte, hmsb, decide_eq_true_eq]
  split <;> omega

/-- R128 under any shift policy: the source halved, and its bit 0 in VF. -/
theorem shiftRight_spec (p : Config.ShiftPolicy) (x y : Nibble) (s : State) :
    ∃ t, shiftRight p x y s = .next t ∧
      (x ≠ 0xF#4 → (t.readV x).toNat = (shiftSource p s x y).toNat / 2) ∧
      (t.readV 0xF#4).toNat = (shiftSource p s x y).toNat % 2 ∧
      t.pc = s.pc + 2#16 ∧ Frame [x, 0xF#4] [] s t ∧ MemKept s t := by
  obtain ⟨hres, hflag, hrest⟩ := writeResultFlag_advance_spec s x (shiftSource p s x y >>> 1)
    (bitOutRight (shiftSource p s x y))
  refine ⟨_, rfl, fun hx => ?_, ?_, hrest⟩
  · rw [hres hx, BitVec.toNat_ushiftRight, Nat.shiftRight_one]
  · rw [hflag, toNat_flagByte_bitOutRight]

/-- R130 under any shift policy: the source doubled mod 256, and its bit 7 in VF. -/
theorem shiftLeft_spec (p : Config.ShiftPolicy) (x y : Nibble) (s : State) :
    ∃ t, shiftLeft p x y s = .next t ∧
      (x ≠ 0xF#4 → (t.readV x).toNat = 2 * (shiftSource p s x y).toNat % 256) ∧
      (t.readV 0xF#4).toNat = (shiftSource p s x y).toNat / 128 ∧
      t.pc = s.pc + 2#16 ∧ Frame [x, 0xF#4] [] s t ∧ MemKept s t := by
  obtain ⟨hres, hflag, hrest⟩ := writeResultFlag_advance_spec s x (shiftSource p s x y <<< 1)
    (bitOutLeft (shiftSource p s x y))
  refine ⟨_, rfl, fun hx => ?_, ?_, hrest⟩
  · rw [hres hx, BitVec.toNat_shiftLeft, Nat.shiftLeft_eq, Nat.mul_comm]
  · rw [hflag, toNat_flagByte_bitOutLeft]

/-! ## The jump with offset -/

/-- A 12-bit address plus a byte fits in 16 bits, so the sum of R113 is not reduced. -/
theorem toNat_zextAddr_add_zextByte (nnn : Addr12) (b : Byte) :
    (zextAddr nnn + zextByte b).toNat = nnn.toNat + b.toNat := by
  have hn := nnn.isLt
  have hb := b.isLt
  simp only [zextAddr, zextByte, BitVec.toNat_add, BitVec.toNat_setWidth]
  omega

/-- R113 under any jump policy: NNN plus the policy's register, and nothing but PC changes. -/
theorem jumpOffset_spec (p : Config.JumpOffsetPolicy) (nnn : Addr12) (s : State) :
    ∃ t, jumpOffset p nnn s = .next t ∧
      t.pc.toNat = nnn.toNat + (s.readV (offsetRegister p nnn)).toNat ∧ Frame [] [] s t ∧ MemKept s t :=
  ⟨_, rfl, toNat_zextAddr_add_zextByte _ _, (Frame.refl _ _ s).setPc _, .of_eq rfl⟩

/-- The policy's VX is the register whose number is the top nibble of NNN (R6). -/
theorem offsetRegister_vx_eq {nnn : Addr12} {k : Nibble} (hk : k.toNat = nnn.toNat / 256) :
    offsetRegister .vx nnn = k := by
  have hn := nnn.isLt
  apply BitVec.eq_of_toNat_eq
  rw [hk, offsetRegister, BitVec.extractLsb'_toNat, Nat.shiftRight_eq_div_pow]
  omega

/-! ## The block transfers -/

/-- FX55 completes under any policy for I where R57 and R58 let it (R144). -/
theorem storeBlock_eq_next (p : Config.LoadStoreIPolicy) {x : Nibble} {s : State}
    (hhi : s.i.toNat + x.toNat ≤ 0xFFF) (hlo : 0x200 ≤ s.i.toNat) :
    storeBlock p x s = .next (((s.setMem (Memory.setBytes s.mem s.i.toNat (blockOf s.v x))).setI
      (indexAfterBlock p s.i x)).advance) := by
  have hlen := length_blockOf s.v x
  rcases memWrite_cases s.mem s.i.toNat (blockOf s.v x) with ⟨_, hpast, _⟩ | ⟨_, _, hlow, _⟩ | ⟨_, hok⟩
  · omega
  · omega
  · rw [storeBlock, hok, Check.map_ok, finish_ok]

/-- FX65 completes under any policy for I where R57 lets it (R145). -/
theorem readBlock_eq_next (p : Config.LoadStoreIPolicy) {x : Nibble} {s : State}
    (hhi : s.i.toNat + x.toNat ≤ 0xFFF) :
    readBlock p x s = .next (((s.setV (loadBlock s.v 0 (Memory.getBytes s.mem s.i.toNat (x.toNat + 1)))).setI
      (indexAfterBlock p s.i x)).advance) := by
  rcases memRead_cases s.mem s.i.toNat (x.toNat + 1) with ⟨_, hpast, _⟩ | ⟨_, hok⟩
  · omega
  · rw [readBlock, hok, Check.map_ok, finish_ok]

theorem toNat_indexAfterBlock_iIncrement (i : Addr) (x : Nibble) :
    (indexAfterBlock .iIncrement i x).toNat = (i.toNat + x.toNat + 1) % 65536 := by
  have hx := x.isLt
  simp only [indexAfterBlock, BitVec.toNat_add, BitVec.toNat_setWidth, BitVec.toNat_ofNat]
  omega

/-- R144, R145: an operation that reads its policy only for the I it leaves gives, under the two policies, states that
differ in I alone. -/
theorem loadStoreIPolicies_differ_in_i {run : Config.LoadStoreIPolicy → Result} {w : State} {i : Addr} {x : Nibble}
    (hrun : ∀ p, run p = .next (w.setI (indexAfterBlock p i x)).advance) :
    ∃ t u, run .iUnchanged = .next t ∧ run .iIncrement = .next u ∧ t.i = i ∧
      u = { t with i := u.i } ∧ u.i.toNat = (i.toNat + x.toNat + 1) % 65536 :=
  ⟨_, _, hrun _, hrun _, rfl, rfl, toNat_indexAfterBlock_iIncrement i x⟩

/-- Settles O24, from what each operation does under every value of its policy. -/
theorem policyAlternatives : Obligations.PolicyAlternatives := by
  unfold Obligations.PolicyAlternatives
  intro x y nnn s
  refine ⟨shiftRight_spec .vyIntoVx x y s, shiftLeft_spec .vyIntoVx x y s, fun k hk => ?_, fun hhi hlo => ?_, fun hhi => ?_⟩
  · rw [← offsetRegister_vx_eq hk]
    exact jumpOffset_spec .vx nnn s
  · exact loadStoreIPolicies_differ_in_i fun p => storeBlock_eq_next p hhi hlo
  · exact loadStoreIPolicies_differ_in_i fun p => readBlock_eq_next p hhi

end Sys2Proof.Machine
end

section
/-! PROOFS. The invariant of the reachable states (spec/10_state.md R24, R26, R33, R41; O45 to O48): one rule per state
operation, then every instruction, every step, every event, every run. -/

namespace Sys2Proof.Machine

/-! ## What the invariant reads, and the rules of the state operations -/

/-- The pieces of state the invariant speaks of. -/
def State.watched (s : State) : Memory × BitVec 8 × Vector Addr 16 × Addr × RunState × Option FatalFault :=
  (s.mem, s.sp, s.stack, s.pc, s.run, s.fault)

theorem State.eq_of_watched_eq {s t : State} (h : t.watched = s.watched) :
    t.mem = s.mem ∧ t.sp = s.sp ∧ t.stack = s.stack ∧ t.pc = s.pc ∧ t.run = s.run ∧ t.fault = s.fault := by
  simpa only [State.watched, Prod.mk.injEq] using h

/-- The invariant depends on the watched pieces alone. -/
theorem Invariant.congr {s t : State} (h : Invariant s) (hst : t.watched = s.watched) : Invariant t := by
  obtain ⟨hmem, hsp, hstack, hpc, hrun, hfault⟩ := State.eq_of_watched_eq hst
  exact ⟨hmem ▸ h.memory, hmem ▸ h.guarded, hsp ▸ h.depth, hstack ▸ h.returns, hpc ▸ h.counter,
    by rw [hfault, hrun]; exact h.latch⟩

theorem Invariant.setPc {s : State} {a : Addr} (h : Invariant s) (ha : a.toNat ≤ 0x10FE) : Invariant (s.setPc a) :=
  ⟨h.memory, h.guarded, h.depth, h.returns, ha, h.latch⟩

/-- A change of run state that neither enters nor leaves HALTED keeps the latch right (R33). -/
theorem Invariant.setRun {s : State} {r : RunState} (h : Invariant s) (hs : s.run ≠ .halted) (hr : r ≠ .halted) :
    Invariant (s.setRun r) :=
  ⟨h.memory, h.guarded, h.depth, h.returns, h.counter, iff_of_true (h.latch.2 hs) hr⟩

theorem Invariant.enterFault {s : State} (h : Invariant s) (f : FatalFault) : Invariant (s.enterFault f) :=
  ⟨h.memory, h.guarded, h.depth, h.returns, h.counter, by simp⟩

/-- A block write from the ROM load address up and inside MEM (R51, R58, R204). -/
theorem Invariant.setBytes {s : State} {a : Nat} {bytes : List Byte} (h : Invariant s) (hlo : 0x200 ≤ a)
    (hhi : a + bytes.length ≤ 0x1000) : Invariant (s.setMem (Memory.setBytes s.mem a bytes)) where
  memory := Memory.wf_setBytes h.memory hhi
  guarded c hc := (Memory.mem_setBytes hc).elim hlo.trans (h.guarded c)
  depth := h.depth
  returns := h.returns
  counter := h.counter
  latch := h.latch

theorem Invariant.push {s : State} {a : Addr} (h : Invariant s) (hsp : s.sp.toNat < 16) (ha : a.toNat ≤ 0x1000) :
    Invariant ((s.setStack (s.stack.set s.sp.toNat a hsp)).setSp (s.sp + 1#8)) where
  memory := h.memory
  guarded := h.guarded
  depth := by
    simp only [State.setSp_sp, BitVec.toNat_add, BitVec.toNat_ofNat]
    omega
  returns j := by
    simp only [State.setSp_stack, State.setStack_stack, Vector.getElem_set]
    split
    · exact ha
    · exact h.returns j
  counter := h.counter
  latch := h.latch

theorem Invariant.pop {s : State} (h : Invariant s) (hsp : 0 < s.sp.toNat) : Invariant (s.setSp (s.sp - 1#8)) where
  memory := h.memory
  guarded := h.guarded
  depth := by
    have hdepth := h.depth
    simp only [State.setSp_sp, BitVec.toNat_sub, BitVec.toNat_ofNat]
    omega
  returns := h.returns
  counter := h.counter
  latch := h.latch

/-- `Invariant.returns` with the stack entry named by a number. -/
theorem Invariant.stack_le {s : State} (h : Invariant s) {k : Nat} (hk : k < 16) : s.stack[k].toNat ≤ 0x1000 :=
  h.returns (BitVec.ofFin ⟨k, hk⟩)

/-! ## The next PC of an instruction that could be fetched (R24, R91) -/

theorem toNat_zextAddr_le (nnn : Addr12) : (zextAddr nnn).toNat ≤ 0xFFF := by
  have hn := nnn.isLt
  simp only [zextAddr, BitVec.toNat_setWidth]
  omega

theorem toNat_pcn_le {s : State} (hpc : s.pc.toNat ≤ 0xFFE) : s.pcn.toNat ≤ 0x1000 := by
  simp only [State.pcn, BitVec.toNat_add, BitVec.toNat_ofNat]
  omega

theorem Invariant.skipIf {s : State} (h : Invariant s) (hpc : s.pc.toNat ≤ 0xFFE) (c : Bool) :
    Invariant (s.skipIf c) := by
  refine h.setPc ?_
  have hpcn := toNat_pcn_le hpc
  cases c with
  | false => exact hpcn.trans (by decide)
  | true =>
    simp only [if_true, BitVec.toNat_add, BitVec.toNat_ofNat]
    omega

/-- The rule of most instructions: nothing watched changes, and PC moves on by 2 (R94). -/
theorem Invariant.advance {s t : State} (h : Invariant s) (hpc : s.pc.toNat ≤ 0xFFE) (hst : t.watched = s.watched) :
    Invariant t.advance := by
  obtain ⟨-, -, -, hpct, -, -⟩ := State.eq_of_watched_eq hst
  exact (h.congr hst).setPc ((toNat_pcn_le (hpct ▸ hpc)).trans (by decide))

/-! ## Results that complete with the invariant -/

/-- The result is a next state, and the invariant holds there. -/
def CompletesInvariant (r : Result) : Prop := ∃ t, r = .next t ∧ Invariant t

theorem completesInvariant_next {t : State} (h : Invariant t) : CompletesInvariant (.next t) := ⟨t, rfl, h⟩

/-- A fault that is taken completes (R178). -/
theorem completesInvariant_raised {s : State} (h : Invariant s) (f : FatalFault) :
    CompletesInvariant (finish s (.raised f)) := ⟨_, rfl, h.enterFault f⟩

theorem completesInvariant_memRead {s : State} {addr n : Nat} {g : List Byte → State} (h : Invariant s)
    (hg : ∀ bytes, Invariant (g bytes)) : CompletesInvariant (finish s ((memRead s.mem addr n).map g)) := by
  rcases memRead_cases s.mem addr n with ⟨_, _, hr⟩ | ⟨_, hr⟩ <;> rw [hr]
  · exact completesInvariant_raised h _
  · exact completesInvariant_next (hg _)

theorem completesInvariant_memWrite {s : State} {addr : Nat} {bytes : List Byte} {g : Memory → State}
    (h : Invariant s) (hne : 0 < bytes.length)
    (hg : ∀ m, Invariant (s.setMem m) → Invariant (g m)) :
    CompletesInvariant (finish s ((memWrite s.mem addr bytes).map g)) := by
  rcases memWrite_cases s.mem addr bytes with ⟨_, _, hw⟩ | ⟨_, _, _, hw⟩ | ⟨hin, hw⟩ <;> rw [hw]
  · exact completesInvariant_raised h _
  · exact completesInvariant_raised h _
  · exact completesInvariant_next (hg _ (h.setBytes (by omega) (by omega)))

/-- 00EE: the popped entry is a return address, which PC may take (R110). -/
theorem execRet_completesInvariant {s : State} (h : Invariant s) : CompletesInvariant (execRet s) := by
  unfold execRet
  rcases pop_cases s with ⟨_, hp⟩ | ⟨hdeep, _⟩ | ⟨hlt, hpos, hp⟩
  · rw [hp]; exact completesInvariant_raised h _
  · exact absurd h.depth (by omega)
  · rw [hp]
    exact completesInvariant_next ((h.pop hpos).setPc ((h.stack_le hlt).trans (by decide)))

/-- 2NNN: the pushed address is at most 0x1000, since the instruction could be fetched (R112). -/
theorem execCall_completesInvariant {s : State} (h : Invariant s) (hpc : s.pc.toNat ≤ 0xFFE) (nnn : Addr12) :
    CompletesInvariant (execCall nnn s) := by
  unfold execCall
  rcases push_cases s s.pcn with ⟨_, hp⟩ | ⟨hdeep, _⟩ | ⟨hlt, hp⟩
  · rw [hp]; exact completesInvariant_raised h _
  · exact absurd h.depth (by omega)
  · rw [hp]
    exact completesInvariant_next ((h.push hlt (toNat_pcn_le hpc)).setPc ((toNat_zextAddr_le nnn).trans (by decide)))

theorem jumpOffset_completesInvariant {s : State} (h : Invariant s) (p : Config.JumpOffsetPolicy) (nnn : Addr12) :
    CompletesInvariant (jumpOffset p nnn s) := by
  refine completesInvariant_next (h.setPc ?_)
  have hn := nnn.isLt
  have hb := (s.readV (offsetRegister p nnn)).isLt
  rw [toNat_zextAddr_add_zextByte]
  omega

/-- Every instruction that could be fetched completes, and keeps the invariant. -/
theorem exec_completesInvariant (i : Instr) {s : State} (h : Invariant s) (hrun : s.run = .running)
    (hpc : s.pc.toNat ≤ 0xFFE) : CompletesInvariant (exec i s) := by
  cases i
  case ret => exact execRet_completesInvariant h
  case call nnn => exact execCall_completesInvariant h hpc nnn
  case jp nnn => exact completesInvariant_next (h.setPc ((toNat_zextAddr_le nnn).trans (by decide)))
  case jpOff nnn => exact jumpOffset_completesInvariant h _ nnn
  case seImm | sneImm | seReg | sneReg | skp | sknp => exact completesInvariant_next (h.skipIf hpc _)
  case drw x y n => exact completesInvariant_memRead h fun _ => h.advance hpc rfl
  case loadRegs x => exact completesInvariant_memRead h fun _ => h.advance hpc rfl
  case storeBcd x => exact completesInvariant_memWrite h (by simp [bcdDigits]) fun _ hm => hm.advance hpc rfl
  case storeRegs x => exact completesInvariant_memWrite h (by simp) fun _ hm => hm.advance hpc rfl
  case waitKey x =>
    have hwait : Invariant (s.setRun .waitingForKey) := h.setRun (by simp [hrun]) (by simp)
    exact completesInvariant_next (hwait.advance hpc rfl)
  case cls | ldImm | addImm | ldReg | orReg | andReg | xorReg | addReg | subReg | shr | subn | shl | ldI | rnd
    | ldFromDt | setDt | setSt | addI | ldFont => exact completesInvariant_next (h.advance hpc rfl)

/-! ## Steps, events, runs -/

/-- R90, RUNNING: the fetch check is what bounds PC for the instruction. -/
theorem stepRunning_completesInvariant {s : State} (h : Invariant s) (hrun : s.run = .running) :
    CompletesInvariant (stepRunning s) := by
  unfold stepRunning
  rcases fetch_cases s with ⟨_, hf⟩ | ⟨hpc, hf⟩
  · rw [hf]; exact completesInvariant_raised h _
  · simp only [hf]
    split
    · exact exec_completesInvariant _ h hrun (by omega)
    · exact completesInvariant_raised h _

/-- R90, WAITING_FOR_KEY. -/
theorem keyWaitPoll_invariant {s : State} (h : Invariant s) (hrun : s.run = .waitingForKey) :
    Invariant (keyWaitPoll s) := by
  unfold keyWaitPoll
  split
  · have hresume : Invariant (s.setRun .running) := h.setRun (by simp [hrun]) (by simp)
    exact hresume.congr rfl
  · exact h.congr rfl

theorem step_completesInvariant {s : State} (h : Invariant s) : CompletesInvariant (step s) := by
  unfold step
  split
  next => exact completesInvariant_next h
  next hrun => exact completesInvariant_next (keyWaitPoll_invariant h hrun)
  next hrun => exact stepRunning_completesInvariant h hrun

/-- Settles O45, from the reset values of R40. -/
theorem resetSatisfiesTheInvariant : Obligations.ResetSatisfiesTheInvariant := by
  unfold Obligations.ResetSatisfiesTheInvariant
  exact ⟨rfl, by simp [State.reset], by decide, by simp [State.reset], by decide, by decide⟩

/-- Settles O46: a step has one answer, and it is a state with the invariant. -/
theorem stepKeepsTheInvariant : Obligations.StepKeepsTheInvariant := by
  unfold Obligations.StepKeepsTheInvariant
  intro s t h hstep
  obtain ⟨u, hu, hinv⟩ := step_completesInvariant h
  obtain rfl : u = t := Host.Outcome.next.inj (hu.symm.trans hstep)
  exact hinv

/-- Settles O47: a Step by the step's own rule, the other events by the rules of the operations they are made of. -/
theorem everyEventCompletesAndKeepsTheInvariant : Obligations.EveryEventCompletesAndKeepsTheInvariant := by
  unfold Obligations.EveryEventCompletesAndKeepsTheInvariant
  intro e s h
  cases e with
  | reset rng => exact ⟨_, _, rfl, resetSatisfiesTheInvariant.congr rfl⟩
  | loadRom bytes =>
    refine ⟨_, _, rfl, ?_⟩
    unfold loadRom
    split
    · exact h
    · exact h.setBytes (by decide) (by omega)
  | step =>
    obtain ⟨t, hstep, hinv⟩ := step_completesInvariant h
    exact ⟨t, _, by rw [handle, hstep], hinv⟩
  | tickTimers | setKeyState | seedRng => exact ⟨_, _, rfl, h.congr rfl⟩
  | readDisplay => exact ⟨_, _, rfl, h⟩

theorem runEvents_completesInvariant (es : List Event) {s : State} (h : Invariant s) :
    CompletesInvariant (runEvents es s) := by
  induction es generalizing s with
  | nil => exact completesInvariant_next h
  | cons e es ih =>
    obtain ⟨t, r, hevent, hinv⟩ := everyEventCompletesAndKeepsTheInvariant e s h
    simp only [runEvents, hevent]
    exact ih hinv

/-- Settles O48, by induction over the events. -/
theorem everyRunFromResetCompletes : Obligations.EveryRunFromResetCompletes := by
  unfold Obligations.EveryRunFromResetCompletes
  exact fun es => runEvents_completesInvariant es resetSatisfiesTheInvariant

end Sys2Proof.Machine
end

section
/-! PROOFS. The V registers an instruction writes, and the flag (spec/10_state.md R21, R22; O54, O55). -/

namespace Sys2Proof.Machine

/-- All that an instruction whose one check is `c` can do with a next state (R13). -/
theorem finish_map_next {α : Type} {s t : State} {c : Check α} {g : α → State} (h : finish s (c.map g) = .next t) :
    (∃ a, c = .ok a ∧ t = g a) ∨ ∃ f, t = s.enterFault f := by
  cases c with
  | ok a => exact .inl ⟨a, rfl, (Host.Outcome.next.inj h).symm⟩
  | raised f => exact .inr ⟨f, (Host.Outcome.next.inj h).symm⟩
  | stuck f => cases h

/-- With one check, a register that changed was changed by the completed instruction, since a fault changes none (R178). -/
theorem finish_map_readV_ne {α : Type} {s t : State} {c : Check α} {g : α → State} {k : Nibble}
    (h : finish s (c.map g) = .next t) (hne : t.readV k ≠ s.readV k) :
    ∃ a, c = .ok a ∧ (g a).readV k ≠ s.readV k := by
  rcases finish_map_next h with ⟨a, hc, rfl⟩ | ⟨f, rfl⟩
  · exact ⟨a, hc, hne⟩
  · exact absurd (State.readV_enterFault s f k) hne

theorem eq_of_readV_writeV_ne {s : State} {x k : Nibble} {b : Byte} (hne : (s.writeV x b).readV k ≠ s.readV k) :
    k = x := by
  by_contra hk
  rw [State.readV_writeV, if_neg hk] at hne
  exact hne rfl

theorem eq_or_eq_of_readV_writeResultFlag_ne {s : State} {x k : Nibble} {r : Byte} {c : Bool}
    (hne : (s.writeResultFlag x r c).readV k ≠ s.readV k) : k = x ∨ k = vf := by
  by_contra hk
  obtain ⟨hx, hvf⟩ := not_or.mp hk
  rw [State.readV_writeResultFlag, if_neg hvf, if_neg hx] at hne
  exact hne rfl

/-- A block load leaves the registers past the block alone (R145). -/
theorem lt_of_readV_loadBlock_ne {s : State} {k : Nibble} {bytes : List Byte}
    (hne : (s.setV (loadBlock s.v 0 bytes)).readV k ≠ s.readV k) : k.toNat < bytes.length := by
  by_contra hk
  simp [State.readV, getElem_loadBlock, hk] at hne

/-- A block read that succeeds gives as many bytes as were asked for (R56). -/
theorem length_of_memRead_ok {m : Memory} {addr n : Nat} {bytes : List Byte} (h : memRead m addr n = .ok bytes) :
    bytes.length = n := by
  rcases memRead_cases m addr n with ⟨_, _, hr⟩ | ⟨_, hr⟩ <;> cases hr.symm.trans h
  exact Memory.length_getBytes m addr n

/-- Settles O54, instruction by instruction: none, one register, the result and the flag, the flag, or a block. -/
theorem onlyTheNamedRegistersAreWritten : Obligations.OnlyTheNamedRegistersAreWritten := by
  unfold Obligations.OnlyTheNamedRegistersAreWritten
  intro i s t k h hne
  cases i
  case cls | jp | seImm | sneImm | seReg | sneReg | ldI | jpOff | skp | sknp | waitKey | setDt | setSt | addI | ldFont =>
    cases h
    exact absurd rfl hne
  case ret =>
    obtain ⟨⟨a, u⟩, hpop, hread⟩ := finish_map_readV_ne h hne
    rcases pop_cases s with ⟨_, hp⟩ | ⟨_, hp⟩ | ⟨_, _, hp⟩ <;> cases hp.symm.trans hpop
    exact absurd rfl hread
  case call nnn =>
    obtain ⟨u, hpush, hread⟩ := finish_map_readV_ne h hne
    rcases push_cases s s.pcn with ⟨_, hp⟩ | ⟨_, hp⟩ | ⟨_, hp⟩ <;> cases hp.symm.trans hpush
    exact absurd rfl hread
  case storeBcd x | storeRegs x =>
    obtain ⟨_, _, hread⟩ := finish_map_readV_ne h hne
    exact absurd rfl hread
  case ldImm x nn | addImm x nn | ldReg x y | orReg x y | andReg x y | xorReg x y | rnd x nn | ldFromDt x =>
    cases h
    exact beq_iff_eq.2 (eq_of_readV_writeV_ne hne)
  case addReg x y | subReg x y | shr x y | subn x y | shl x y =>
    cases h
    simpa [mayWriteV] using eq_or_eq_of_readV_writeResultFlag_ne hne
  case drw x y n =>
    obtain ⟨_, _, hread⟩ := finish_map_readV_ne h hne
    exact beq_iff_eq.2 (eq_of_readV_writeV_ne hread)
  case loadRegs x =>
    obtain ⟨bytes, hbytes, hread⟩ := finish_map_readV_ne h hne
    have hlen := length_of_memRead_ok hbytes
    have hk : k.toNat < bytes.length := lt_of_readV_loadBlock_ne hread
    exact decide_eq_true (by omega)

theorem flagByte_eq_zero_or_one (c : Bool) : flagByte c = 0#8 ∨ flagByte c = 1#8 := by
  cases c <;> simp [flagByte]

/-- R151: VF is written last. -/
theorem readV_vf_drawSprite (x y : Nibble) (rows : List Byte) (s : State) :
    ∃ c, (drawSprite x y rows s).readV vf = flagByte c :=
  ⟨_, State.readV_writeV_self _ vf _⟩

/-- Settles O55: the flag is the last register written, so it stands where X is 15 too. -/
theorem theFlagIsZeroOrOne : Obligations.TheFlagIsZeroOrOne := by
  unfold Obligations.TheFlagIsZeroOrOne
  intro x y n i s t hi _ h hrun
  suffices hflag : ∃ c, t.readV 0xF#4 = flagByte c by
    obtain ⟨c, hc⟩ := hflag
    rw [hc]
    exact flagByte_eq_zero_or_one c
  cases i
  case addReg x y | subReg x y | shr x y | subn x y | shl x y =>
    cases h
    exact ⟨_, (writeResultFlag_advance_spec s x _ _).2.1⟩
  case drw x y n =>
    rcases finish_map_next h with ⟨rows, _, rfl⟩ | ⟨f, rfl⟩
    · exact readV_vf_drawSprite x y rows s
    · cases hrun
  -- no other instruction is in the list
  all_goals simp at hi

end Sys2Proof.Machine
end

section
/-! PROOFS. Fetch, and the coherence of fetches and block transfers with stores (spec/20_memory.md R52, R61, R63; O5, O31,
O32): what a running step executes, what FX55 leaves in memory and what FX65 reads from it, each said once. -/

namespace Sys2Proof.Machine

/-! ## The fetched instruction -/

/-- R52: with both bytes inside MEM, the fetch gives the word whose value is read at PC. -/
theorem fetch_eq_ok {s : State} {op : OpWord} (hpc : s.pc.toNat + 1 ≤ 0xFFF) (hop : op.toNat = wordAtPc s) :
    fetch s = .ok op := by
  rcases fetch_cases s with ⟨hpast, _⟩ | ⟨_, hfetch⟩
  · omega
  · have hword : assemble (Memory.get s.mem s.pc.toNat) (Memory.get s.mem (s.pc.toNat + 1)) = op :=
      BitVec.eq_of_toNat_eq ((toNat_assemble _ _).trans hop.symm)
    rw [hfetch, hword]

/-- Settles O5: the fetch and the decoding are the step's two checks before `exec`. -/
theorem stepRunsTheDecodedInstruction : Obligations.StepRunsTheDecodedInstruction := by
  unfold Obligations.StepRunsTheDecodedInstruction
  intro s op i hrun hpc hop hdec
  simp only [step, hrun, stepRunning, fetch_eq_ok hpc hop, hdec]

/-! ## What FX55 leaves in memory, and what FX65 reads -/

/-- R144: where FX55 stores, the byte at I + k is then V[k]; I and the run state are kept. -/
theorem exec_storeRegs_stores {x : Nibble} {s : State} (hhi : s.i.toNat + x.toNat ≤ 0xFFF) (hlo : 0x200 ≤ s.i.toNat) :
    ∃ t, exec (.storeRegs x) s = .next t ∧ t.i = s.i ∧ t.run = s.run ∧
      ∀ k : Nibble, k.toNat ≤ x.toNat → Memory.get t.mem (s.i.toNat + k.toNat) = s.readV k := by
  refine ⟨_, storeBlock_eq_next loadStoreIPolicy hhi hlo, rfl, rfl, fun k hk => ?_⟩
  have hlen : k.toNat < (blockOf s.v x).length := by
    rw [length_blockOf]
    omega
  exact (Memory.get_setBytes_inside s.mem s.i.toNat _ _ hlen).trans (getElem_blockOf s.v x _ hlen)

/-- R145: where FX65 loads, V[k] is then the byte at I + k. -/
theorem exec_loadRegs_loads {x : Nibble} {s : State} (hhi : s.i.toNat + x.toNat ≤ 0xFFF) :
    ∃ t, exec (.loadRegs x) s = .next t ∧
      ∀ k : Nibble, k.toNat ≤ x.toNat → t.readV k = Memory.get s.mem (s.i.toNat + k.toNat) := by
  refine ⟨_, readBlock_eq_next loadStoreIPolicy hhi, fun k hk => ?_⟩
  simp [State.readV, getElem_loadBlock, Nat.lt_succ_of_le hk]

/-- Settles O31: I still names the block that FX55 wrote, and the V registers are no part of what FX65 reads (R61). -/
theorem storeThenLoadRestoresRegisters : Obligations.StoreThenLoadRestoresRegisters := by
  unfold Obligations.StoreThenLoadRestoresRegisters
  intro x s w hhi hlo
  obtain ⟨t, hstore, hi, -, hstored⟩ := exec_storeRegs_stores hhi hlo
  rw [← hi] at hhi hstored
  obtain ⟨u, hload, hloaded⟩ := exec_loadRegs_loads (s := { t with v := w }) hhi
  exact ⟨t, u, hstore, hload, fun k hk => (hloaded k hk).trans (hstored k hk)⟩

/-- Settles O32: the two bytes at the new PC are V0 and V1, so the step is the one of O5 on that word (R63). -/
theorem storedBytesAreFetched : Obligations.StoredBytesAreFetched := by
  unfold Obligations.StoredBytesAreFetched
  intro x s op i hrun hx hhi hlo hop hdec
  obtain ⟨t, hstore, -, hrunt, hstored⟩ := exec_storeRegs_stores hhi hlo
  have hhigh : Memory.get t.mem s.i.toNat = s.readV 0x0#4 := hstored 0x0#4 (Nat.zero_le _)
  have hlow : Memory.get t.mem (s.i.toNat + 1) = s.readV 0x1#4 := hstored 0x1#4 hx
  have hword : op.toNat = wordAtPc { t with pc := s.i } := by rw [wordAtPc, hhigh, hlow, hop]
  have hpc : s.i.toNat + 1 ≤ 0xFFF := by omega
  exact ⟨t, hstore, stepRunsTheDecodedInstruction { t with pc := s.i } op i (hrunt.trans hrun) hpc hword hdec⟩

end Sys2Proof.Machine
end

section
/-! PROOFS. The encoding (spec/30_encoding.md R71 to R79; O1 to O4): decoding after encoding by the format of the instruction,
encoding after decoding by the family of the word, and the row of the opcode map a word decodes to by the mask of the row. -/

namespace Sys2Proof

/-! ## From an instruction to its word and back -/

/-- R71, R73: the selector fields of an encoded word lead back to the same arm, and the operand fields are the operands. -/
theorem decode_encode (i : Instr) : decode (encode i) = some i := by
  cases i with
  | cls | ret => rfl
  | jp a | call a | ldI a | jpOff a => simp only [encode, decode, family_packNNN, nnn_packNNN]; rfl
  | seReg x y | ldReg x y | orReg x y | andReg x y | xorReg x y | addReg x y | subReg x y | shr x y | subn x y | shl x y
  | sneReg x y | drw x y n =>
    simp only [encode, decode, family_packXYN, x_packXYN, y_packXYN, n_packXYN]; rfl
  | seImm x nn | sneImm x nn | ldImm x nn | addImm x nn | rnd x nn | skp x | sknp x | ldFromDt x | waitKey x | setDt x
  | setSt x | addI x | ldFont x | storeBcd x | storeRegs x | loadRegs x =>
    simp only [encode, decode, family_packXNN, x_packXNN, nn_packXNN]; rfl

/-- R52: the bytes of a legal word decode as the word does, whatever follows them. -/
theorem decodeBytes_layOut_append {op : OpWord} {i : Instr} (h : decode op = some i) (rest : List Byte) :
    decodeBytes (layOut op ++ rest) = .instr i rest := by
  simp only [layOut, List.cons_append, List.nil_append, decodeBytes, assemble_layOut, h]

/-- Settles O2: the word round trip, carried to the bytes. -/
theorem decodeOfEncodedInstruction : Obligations.DecodeOfEncodedInstruction := by
  unfold Obligations.DecodeOfEncodedInstruction
  intro i rest
  exact ⟨decode_encode i, decodeBytes_layOut_append (decode_encode i) rest⟩

/-! ## From a word to its instruction and back -/

theorem packNNN_of_family_eq {op : OpWord} {f : Nibble} (hf : OpWord.family op = f) : packNNN f (OpWord.nnn op) = op :=
  hf ▸ pack_fields_NNN op

theorem packXNN_of_family_eq {op : OpWord} {f : Nibble} (hf : OpWord.family op = f) :
    packXNN f (OpWord.x op) (OpWord.nn op) = op :=
  hf ▸ pack_fields_XNN op

theorem packXYN_of_fields_eq {op : OpWord} {f n : Nibble} (hf : OpWord.family op = f) (hn : OpWord.n op = n) :
    packXYN f (OpWord.x op) (OpWord.y op) n = op :=
  hf ▸ hn ▸ pack_fields_XYN op

theorem encode_of_decode0 {nnn : Addr12} {i : Instr} (h : decode0 nnn = some i) : encode i = packNNN 0x0#4 nnn := by
  unfold decode0 at h
  split at h
  next hcls => cases h; subst hcls; rfl
  next =>
    split at h
    next hret => cases h; subst hret; rfl
    next => cases h

theorem encode_of_decode8 {x y n : Nibble} {i : Instr} (h : decode8 x y n = some i) : encode i = packXYN 0x8#4 x y n := by
  unfold decode8 at h
  split at h <;> cases h <;> rfl

theorem encode_of_decodeE {x : Nibble} {nn : Byte} {i : Instr} (h : decodeE x nn = some i) :
    encode i = packXNN 0xE#4 x nn := by
  unfold decodeE at h
  split at h <;> cases h <;> rfl

theorem encode_of_decodeF {x : Nibble} {nn : Byte} {i : Instr} (h : decodeF x nn = some i) :
    encode i = packXNN 0xF#4 x nn := by
  unfold decodeF at h
  split at h <;> cases h <;> rfl

/-- R71, R79: in each family the encoder packs the family nibble, the second selector and the operands the decoder read. -/
theorem encode_of_decode {op : OpWord} {i : Instr} (h : decode op = some i) : encode i = op := by
  unfold decode at h
  split at h <;> rename_i hf
  · exact (encode_of_decode0 h).trans (packNNN_of_family_eq hf)
  · cases h; exact packNNN_of_family_eq hf
  · cases h; exact packNNN_of_family_eq hf
  · cases h; exact packXNN_of_family_eq hf
  · cases h; exact packXNN_of_family_eq hf
  · obtain ⟨hn, hi⟩ := Option.ite_none_right_eq_some.1 h
    cases hi; exact packXYN_of_fields_eq hf hn
  · cases h; exact packXNN_of_family_eq hf
  · cases h; exact packXNN_of_family_eq hf
  · exact (encode_of_decode8 h).trans (packXYN_of_fields_eq hf rfl)
  · obtain ⟨hn, hi⟩ := Option.ite_none_right_eq_some.1 h
    cases hi; exact packXYN_of_fields_eq hf hn
  · cases h; exact packNNN_of_family_eq hf
  · cases h; exact packNNN_of_family_eq hf
  · cases h; exact packXNN_of_family_eq hf
  · cases h; exact packXYN_of_fields_eq hf rfl
  · exact (encode_of_decodeE h).trans (packXNN_of_family_eq hf)
  · exact (encode_of_decodeF h).trans (packXNN_of_family_eq hf)
  · cases h

/-- Settles O3, by the family of the word. -/
theorem encodeOfDecodedWord : Obligations.EncodeOfDecodedWord := by
  unfold Obligations.EncodeOfDecodedWord
  exact fun _ _ => encode_of_decode

/-! ## The row of an instruction -/

open Laws.EncodingMatchesRow in
/-- R74: an encoded word has the fixed bits of its row, by the format of the instruction. -/
theorem encode_and_row_mask (i : Instr) : encode i &&& i.row.mask = i.row.fixed := by
  cases i with
  | cls | ret => rfl
  | jp a | call a | ldI a | jpOff a => exact packNNN_row _ a
  | seImm x nn | sneImm x nn | ldImm x nn | addImm x nn | rnd x nn => exact packXNN_row _ x nn
  | seReg x y | ldReg x y | orReg x y | andReg x y | xorReg x y | addReg x y | subReg x y | shr x y | subn x y | shl x y
  | sneReg x y => exact packXYS_row _ x y _
  | drw x y n => exact packXYN_row _ x y n
  | skp x | sknp x | ldFromDt x | waitKey x | setDt x | setSt x | addI x | ldFont x | storeBcd x | storeRegs x
  | loadRegs x => exact packXSS_row _ x _

theorem row_mem_encodingRows (i : Instr) : i.row ∈ encodingRows :=
  List.mem_of_elem_eq_true (by cases i <;> rfl)

/-! ## The row a word decodes to -/

/-- The row of R74 that the decoder takes a word to. -/
def decodedRow (op : OpWord) : Option EncodingRow := (decode op).map Instr.row

theorem decodedRow_eq_some {op : OpWord} {r : EncodingRow} (h : decodedRow op = some r) :
    ∃ i, decode op = some i ∧ i.row = r :=
  Option.map_eq_some_iff.1 h

/-- R75: the families that have one row, which the family nibble alone selects. -/
def familySelected : List Nibble := [0x1, 0x2, 0x3, 0x4, 0x6, 0x7, 0xA, 0xB, 0xC, 0xD]
/-- R75: the families whose row the low nibble selects. -/
def lowNibbleSelected : List Nibble := [0x5, 0x8, 0x9]
/-- R75: the families whose row the low byte selects. -/
def lowByteSelected : List Nibble := [0xE, 0xF]

theorem decodedRow_congr_family {op w : OpWord} (hf : OpWord.family op = OpWord.family w)
    (hw : OpWord.family w ∈ familySelected) : decodedRow op = decodedRow w := by
  simp only [familySelected, List.mem_cons, List.not_mem_nil, or_false] at hw
  unfold decodedRow decode
  rw [hf]
  rcases hw with h | h | h | h | h | h | h | h | h | h <;> rw [h] <;> rfl

theorem row_ite (p : Prop) [Decidable p] {i j : Instr} (h : i.row = j.row) :
    (if p then some i else none).map Instr.row = (if p then some j else none).map Instr.row := by
  split
  · exact congrArg some h
  · rfl

theorem row_decode8 (x y x' y' n : Nibble) : (decode8 x y n).map Instr.row = (decode8 x' y' n).map Instr.row := by
  unfold decode8
  split <;> rfl

theorem row_decodeE (x x' : Nibble) (nn : Byte) : (decodeE x nn).map Instr.row = (decodeE x' nn).map Instr.row := by
  unfold decodeE
  split <;> rfl

theorem row_decodeF (x x' : Nibble) (nn : Byte) : (decodeF x nn).map Instr.row = (decodeF x' nn).map Instr.row := by
  unfold decodeF
  split <;> rfl

theorem decodedRow_congr_low_nibble {op w : OpWord} (hf : OpWord.family op = OpWord.family w)
    (hn : OpWord.n op = OpWord.n w) (hw : OpWord.family w ∈ lowNibbleSelected) : decodedRow op = decodedRow w := by
  simp only [lowNibbleSelected, List.mem_cons, List.not_mem_nil, or_false] at hw
  unfold decodedRow decode
  rw [hf, hn]
  rcases hw with h | h | h <;> rw [h]
  · exact row_ite _ rfl
  · exact row_decode8 _ _ _ _ _
  · exact row_ite _ rfl

theorem decodedRow_congr_low_byte {op w : OpWord} (hf : OpWord.family op = OpWord.family w)
    (hnn : OpWord.nn op = OpWord.nn w) (hw : OpWord.family w ∈ lowByteSelected) : decodedRow op = decodedRow w := by
  simp only [lowByteSelected, List.mem_cons, List.not_mem_nil, or_false] at hw
  unfold decodedRow decode
  rw [hf, hnn]
  rcases hw with h | h <;> rw [h]
  · exact row_decodeE _ _ _
  · exact row_decodeF _ _ _

/-- R74 against R75: the mask of a row covers the fields that select among the rows of its family. -/
theorem mask_of_mem_encodingRows : ∀ r ∈ encodingRows,
    r.mask = 0xFFFF#16 ∨
    (r.mask = 0xF000#16 ∧ OpWord.family r.fixed ∈ familySelected) ∨
    (r.mask = 0xF00F#16 ∧ OpWord.family r.fixed ∈ lowNibbleSelected) ∨
    (r.mask = 0xF0FF#16 ∧ OpWord.family r.fixed ∈ lowByteSelected) := by
  decide

/-- The word with every operand bit 0 decodes to its row. -/
theorem decodedRow_fixed : ∀ r ∈ encodingRows, decodedRow r.fixed = some r := by
  decide

/-- R75: a word decodes to the row whose fixed bits it has, because it agrees with them in every field that selects. -/
theorem decodedRow_eq_of_selects {op : OpWord} {r : EncodingRow} (hr : r ∈ encodingRows) (h : op &&& r.mask = r.fixed) :
    decodedRow op = some r := by
  rw [← decodedRow_fixed r hr]
  rcases mask_of_mem_encodingRows r hr with hm | ⟨hm, hfam⟩ | ⟨hm, hfam⟩ | ⟨hm, hfam⟩
  · have hop : op = r.fixed := by rw [← h, hm]; exact BitVec.and_allOnes.symm
    rw [hop]
  · refine decodedRow_congr_family ?_ hfam
    rw [← h, hm, and_mask_family, family_packXNN]
  · refine decodedRow_congr_low_nibble ?_ ?_ hfam
    · rw [← h, hm, and_mask_low_nibble, family_packXYN]
    · rw [← h, hm, and_mask_low_nibble, n_packXYN]
  · refine decodedRow_congr_low_byte ?_ ?_ hfam
    · rw [← h, hm, and_mask_low_byte, family_packXNN]
    · rw [← h, hm, and_mask_low_byte, nn_packXNN]

/-- Settles O4: a decoded word is the encoding of its instruction, and a selected word decodes to the selecting row. -/
theorem decodeSelectsTheOnlyRow : Obligations.DecodeSelectsTheOnlyRow := by
  unfold Obligations.DecodeSelectsTheOnlyRow
  intro op
  refine ⟨fun i hdec => ⟨row_mem_encodingRows i, ?_⟩, fun r hr h => decodedRow_eq_some (decodedRow_eq_of_selects hr h)⟩
  rw [← encode_of_decode hdec]
  exact encode_and_row_mask i

/-! ## The words of V-ENC -/

/-- Settles O1: closed words, so the decoder is evaluated. -/
theorem specWordsDecodeAsListed : Obligations.SpecWordsDecodeAsListed := by
  unfold Obligations.SpecWordsDecodeAsListed
  decide

end Sys2Proof
end

section
/-! PROOFS. The step cycle (spec/40_step_cycle.md R90 to R97; O6, O50, O53, O56): the two faults before execution, all that an
instruction can answer and leave, said once, and its independence of the random source. -/

namespace Sys2Proof.Machine

/-! ## Fetch and decode faults -/

/-- Settles O6: the fetch check stands before the decoding, and each of the two faults is taken on the state from before. -/
theorem fetchAndDecodeFaultsHalt : Obligations.FetchAndDecodeFaultsHalt := by
  unfold Obligations.FetchAndDecodeFaultsHalt
  intro s hrun
  constructor
  · intro hpast
    rcases fetch_cases s with ⟨_, hfetch⟩ | ⟨hin, _⟩
    · simp only [step, hrun, stepRunning, hfetch]
      rfl
    · omega
  · intro op hpc hop hdec
    simp only [step, hrun, stepRunning, fetch_eq_ok hpc hop, hdec]
    rfl

/-! ## What a completed instruction leaves (R93) -/

/-- R93 for an instruction that ran to its end: which instruction may have changed which piece of state but V and PC. -/
structure Completed (i : Instr) (s t : State) : Prop where
  key : t.key = s.key
  fault : t.fault = s.fault
  run : t.run = s.run ∨ (t.run = .waitingForKey ∧ ∃ x, i = .waitKey x)
  wait : t.waitx ≠ s.waitx ∨ t.kprev ≠ s.kprev → ∃ x, i = .waitKey x
  dt : t.dt ≠ s.dt → ∃ x, i = .setDt x
  st : t.st ≠ s.st → ∃ x, i = .setSt x
  fb : t.fb ≠ s.fb → i = .cls ∨ ∃ x y n, i = .drw x y n
  mem : t.mem ≠ s.mem → (∃ x, i = .storeBcd x) ∨ ∃ x, i = .storeRegs x
  index : t.i ≠ s.i → (∃ nnn, i = .ldI nnn) ∨ (∃ x, i = .addI x) ∨ ∃ x, i = .ldFont x
  stack : t.sp ≠ s.sp ∨ t.stack ≠ s.stack → i = .ret ∨ ∃ nnn, i = .call nnn
  rng : t.rng ≠ s.rng → ∃ x nn, i = .rnd x nn

/-- An instruction that writes V registers and PC alone changes none of the listed pieces. -/
theorem Completed.of_registers {i : Instr} {s t : State} (h : t = { s with v := t.v, pc := t.pc }) :
    Completed i s t := by
  rw [h]
  constructor <;> simp

/-- D6: FX55 and FX65 leave I as it was. -/
theorem indexAfterBlock_loadStoreIPolicy (i : Addr) (x : Nibble) : indexAfterBlock loadStoreIPolicy i x = i := rfl

/-! ## All that an instruction can answer -/

/-- The three answers an instruction has: the model's stop above the stack (assumption log 8), the fault `raisedBy` names, or
completion where it names none. -/
inductive Answers (i : Instr) (s : State) : Result → Prop where
  | stuck (f : Fault) (hsp : 16 < s.sp.toNat) : Answers i s (.fault f)
  | raised {f : FatalFault} (hf : raisedBy i s = some f) : Answers i s (.next (s.enterFault f))
  | completed {t : State} (hnone : raisedBy i s = none) (ht : Completed i s t) : Answers i s (.next t)

theorem answers_memRead {i : Instr} {s : State} {n : Nat} {g : List Byte → State}
    (hpast : 0 < n → s.i.toNat + n - 1 > 0xFFF → raisedBy i s = some .memoryOutOfBounds)
    (hin : n = 0 ∨ s.i.toNat + n ≤ 0x1000 → raisedBy i s = none) (hg : ∀ bytes, Completed i s (g bytes)) :
    Answers i s (finish s ((memRead s.mem s.i.toNat n).map g)) := by
  rcases memRead_cases s.mem s.i.toNat n with ⟨hn, hbound, hr⟩ | ⟨hbound, hr⟩ <;> rw [hr]
  · exact .raised (hpast hn hbound)
  · exact .completed (hin hbound) (hg _)

/-- A block write: the bound is checked before the write bar (D12, D13). -/
theorem answers_memWrite {i : Instr} {s : State} {bytes : List Byte} {g : Memory → State} (hne : 0 < bytes.length)
    (hraised : raisedBy i s = if s.i.toNat + bytes.length - 1 > 0xFFF then some .memoryOutOfBounds
      else if s.i.toNat < 0x200 then some .writeProtected else none)
    (hg : ∀ m, Completed i s (g m)) : Answers i s (finish s ((memWrite s.mem s.i.toNat bytes).map g)) := by
  rcases memWrite_cases s.mem s.i.toNat bytes with ⟨_, hpast, hw⟩ | ⟨_, hin, hlow, hw⟩ | ⟨hin, hw⟩ <;> rw [hw]
  · exact .raised (by rw [hraised, if_pos hpast])
  · exact .raised (by rw [hraised, if_neg (by omega), if_pos hlow])
  · exact .completed (by rw [hraised, if_neg (by omega), if_neg (by omega)]) (hg _)

theorem execRet_answers (s : State) : Answers .ret s (execRet s) := by
  unfold execRet
  rcases pop_cases s with ⟨hempty, hp⟩ | ⟨hdeep, hp⟩ | ⟨_, hpos, hp⟩ <;> rw [hp]
  · exact .raised (if_pos hempty)
  · exact .stuck _ hdeep
  · exact .completed (if_neg (by omega)) (by constructor <;> simp)

theorem execCall_answers (nnn : Addr12) (s : State) : Answers (.call nnn) s (execCall nnn s) := by
  unfold execCall
  rcases push_cases s s.pcn with ⟨hfull, hp⟩ | ⟨hdeep, hp⟩ | ⟨hfree, hp⟩ <;> rw [hp]
  · exact .raised (if_pos hfull)
  · exact .stuck _ hdeep
  · exact .completed (if_neg (by omega)) (by constructor <;> simp)

/-- Every instruction: those with a check by the primitive that checks, the others complete. -/
theorem exec_answers (i : Instr) (s : State) : Answers i s (exec i s) := by
  cases i
  case ret => exact execRet_answers s
  case call nnn => exact execCall_answers nnn s
  case drw x y n =>
    exact answers_memRead (fun hn hpast => if_pos ⟨hn, hpast⟩) (fun hin => if_neg (by omega)) fun _ => by
      constructor <;> simp [drawSprite]
  case loadRegs x =>
    exact answers_memRead (fun _ hpast => if_pos hpast) (fun hin => if_neg (by omega)) fun _ => .of_registers rfl
  case storeBcd x =>
    exact answers_memWrite (by simp [bcdDigits]) rfl fun _ => by constructor <;> simp
  case storeRegs x =>
    exact answers_memWrite (by simp) (by rw [length_blockOf]; rfl) fun _ => by
      constructor <;> simp [indexAfterBlock_loadStoreIPolicy]
  case jp | seImm | sneImm | seReg | sneReg | ldImm | addImm | ldReg | orReg | andReg | xorReg | addReg | subReg | shr
    | subn | shl | jpOff | skp | sknp | ldFromDt => exact .completed rfl (.of_registers rfl)
  case cls | ldI | addI | ldFont | rnd | setDt | setSt | waitKey => exact .completed rfl (by constructor <;> simp)

/-- Settles O50: SP at most 16 rules out the stop, and a completed instruction leaves RUNNING at most for the key wait. -/
theorem execHaltsOnlyOnTheListedConditions : Obligations.ExecHaltsOnlyOnTheListedConditions := by
  unfold Obligations.ExecHaltsOnlyOnTheListedConditions
  intro i s hrun hsp
  have hanswer := exec_answers i s
  generalize exec i s = r at hanswer
  cases hanswer with
  | stuck f hdeep => omega
  | raised hf =>
    refine ⟨fun f hf' => ?_, fun hnone => ?_⟩
    · cases hf.symm.trans hf'
      rfl
    · cases hf.symm.trans hnone
  | @completed t hnone ht =>
    refine ⟨fun f hf => ?_, fun _ => ⟨t, rfl, ?_, ht.fault⟩⟩
    · cases hnone.symm.trans hf
    · rcases ht.run with hkept | ⟨hwait, _⟩
      · simp [hkept, hrun]
      · simp [hwait]

/-- Settles O53: a fault changes RUN and FAULT alone (R178), a completed instruction what R93 lists for it. -/
theorem onlyTheNamedInstructionsChangeEachPart : Obligations.OnlyTheNamedInstructionsChangeEachPart := by
  unfold Obligations.OnlyTheNamedInstructionsChangeEachPart
  intro i s t h
  have hanswer := exec_answers i s
  rw [h] at hanswer
  cases hanswer with
  | @raised f _ =>
    have hfault : ∃ g, s.enterFault f = { s with run := .halted, fault := some g } := ⟨f, rfl⟩
    simp [hfault]
  | completed _ ht =>
    have hmem : (∃ a, Memory.get t.mem a ≠ Memory.get s.mem a) → t.mem ≠ s.mem := by
      rintro ⟨a, ha⟩ heq
      exact ha (by rw [heq])
    have hrun : t.run ≠ s.run → ∃ x, i = .waitKey x := fun hne => (ht.run.resolve_left hne).2
    exact ⟨ht.key, ht.dt, ht.st, ht.fb, ht.mem ∘ hmem, ht.index, ht.stack, ht.wait, .inl ∘ hrun,
      fun hne => absurd ht.fault hne, ht.rng⟩

/-! ## The random source (R34, R97) -/

/-- A checked instruction whose completion passes RNG through: the check itself does not see the state. -/
theorem finish_map_setRng {α : Type} {s t : State} {c : Check α} {g g' : α → State} {r : Nat}
    (h : finish s (c.map g) = .next t) (hg : ∀ a, g' a = (g a).setRng r) :
    finish (s.setRng r) (c.map g') = .next (t.setRng r) := by
  rcases c with a | f | f <;> cases h
  · rw [Check.map_ok, hg, finish_ok]
  · rfl

theorem pop_setRng (s : State) (r : Nat) : pop (s.setRng r) = (pop s).map fun p => (p.1, p.2.setRng r) := by
  unfold pop
  rw [apply_ite (Check.map _), apply_dite (Check.map _)]
  rfl

theorem push_setRng (s : State) (a : Addr) (r : Nat) : push (s.setRng r) a = (push s a).map fun t => t.setRng r := by
  unfold push
  rw [apply_ite (Check.map _), apply_dite (Check.map _)]
  rfl

theorem Check.map_map {α β γ : Type} (c : Check α) (g : α → β) (k : β → γ) : (c.map g).map k = c.map (k ∘ g) := by
  cases c <;> rfl

theorem execRet_setRng {s t : State} (r : Nat) (h : execRet s = .next t) : execRet (s.setRng r) = .next (t.setRng r) := by
  rw [execRet, pop_setRng, Check.map_map]
  exact finish_map_setRng h fun _ => rfl

theorem execCall_setRng {nnn : Addr12} {s t : State} (r : Nat) (h : execCall nnn s = .next t) :
    execCall nnn (s.setRng r) = .next (t.setRng r) := by
  rw [execCall, show (s.setRng r).pcn = s.pcn from rfl, push_setRng, Check.map_map]
  exact finish_map_setRng h fun _ => rfl

/-- Settles O56: no operand, check or result of any other instruction reads RNG, and none writes it. -/
theorem randomStateMattersOnlyToRandom : Obligations.RandomStateMattersOnlyToRandom := by
  unfold Obligations.RandomStateMattersOnlyToRandom
  intro i s t r hrnd h
  cases i
  case rnd x nn => exact absurd rfl (hrnd x nn)
  case ret => exact execRet_setRng r h
  case call nnn => exact execCall_setRng r h
  case drw | storeBcd | storeRegs | loadRegs => exact finish_map_setRng h fun _ => rfl
  -- every other instruction completes, and hands RNG on as it was
  all_goals
    cases h
    rfl

end Sys2Proof.Machine
end

section
/-! PROOFS. Control transfer (spec/41_control_flow.md R110 to R117; O9, O10, O12, O13, O15, O16): call and return by the room on the
stack, the jump and its fixed point, and the skips by their condition. -/

namespace Sys2Proof.Machine

/-! ## Frames of the stack operations -/

theorem Frame.setSp {regs : List Nibble} {parts : List Part} {s t : State} (x : BitVec 8) (h : Frame regs parts s t)
    (hsp : .sp ∈ parts) : Frame regs parts s (t.setSp x) where
  vKept := h.vKept
  partsKept p hp := by
    have hkept := h.partsKept p hp
    cases p
    case sp => exact absurd hsp hp
    all_goals exact hkept

theorem Frame.setStack {regs : List Nibble} {parts : List Part} {s t : State} (x : Vector Addr 16)
    (h : Frame regs parts s t) (hstack : .stack ∈ parts) : Frame regs parts s (t.setStack x) where
  vKept := h.vKept
  partsKept p hp := by
    have hkept := h.partsKept p hp
    cases p
    case stack => exact absurd hstack hp
    all_goals exact hkept

/-! ## Return and call -/

theorem execRet_of_empty {s : State} (hsp : s.sp.toNat = 0) : execRet s = .next (s.enterFault .stackUnderflow) := by
  rcases pop_cases s with ⟨_, hp⟩ | ⟨hdeep, _⟩ | ⟨_, hpos, _⟩
  · rw [execRet, hp, Check.map_raised, finish_raised]
  · omega
  · omega

/-- R110 with `n + 1` addresses held: entry `n` goes to PC and stays in its slot. -/
theorem execRet_of_held {s : State} {n : Nat} (hn : n < 16) (hsp : s.sp.toNat = n + 1) :
    execRet s = .next ((s.setSp (s.sp - 1#8)).setPc s.stack[n]) := by
  rcases pop_cases s with ⟨hempty, _⟩ | ⟨hdeep, _⟩ | ⟨_, _, hp⟩
  · omega
  · omega
  · rw [execRet, hp, Check.map_ok, finish_ok]
    simp only [hsp, Nat.add_sub_cancel]

theorem execCall_of_full (nnn : Addr12) {s : State} (hsp : s.sp.toNat = 16) :
    execCall nnn s = .next (s.enterFault .stackOverflow) := by
  rcases push_cases s s.pcn with ⟨_, hp⟩ | ⟨hdeep, _⟩ | ⟨hfree, _⟩
  · rw [execCall, hp, Check.map_raised, finish_raised]
  · omega
  · omega

/-- The state after a 2NNN that finds a free stack entry (R112). -/
def State.called (s : State) (nnn : Addr12) (hsp : s.sp.toNat < 16) : State :=
  ((s.setStack (s.stack.set s.sp.toNat s.pcn hsp)).setSp (s.sp + 1#8)).setPc (zextAddr nnn)

theorem execCall_of_free (nnn : Addr12) {s : State} (hsp : s.sp.toNat < 16) :
    execCall nnn s = .next (s.called nnn hsp) := by
  rcases push_cases s s.pcn with ⟨hfull, _⟩ | ⟨hdeep, _⟩ | ⟨_, hp⟩
  · omega
  · omega
  · rw [execCall, hp, Check.map_ok, finish_ok, State.called]

theorem State.toNat_called_sp {s : State} (nnn : Addr12) (hsp : s.sp.toNat < 16) :
    (s.called nnn hsp).sp.toNat = s.sp.toNat + 1 := by
  simp only [State.called, State.setPc_sp, State.setSp_sp, BitVec.toNat_add, BitVec.toNat_ofNat]
  omega

/-- R27: the pushed entry is PC + 2, every other entry is as before. -/
theorem State.getElem_called_stack {s : State} (nnn : Addr12) (hsp : s.sp.toNat < 16) {k : Nat} (hk : k < 16) :
    (s.called nnn hsp).stack[k] = if s.sp.toNat = k then s.pcn else s.stack[k] := by
  simp only [State.called, State.setPc_stack, State.setSp_stack, State.setStack_stack, Vector.getElem_set]

theorem State.called_frame {s : State} (nnn : Addr12) (hsp : s.sp.toNat < 16) :
    Frame [] [.sp, .stack] s (s.called nnn hsp) :=
  (((Frame.refl _ _ s).setStack _ (by simp)).setSp _ (by simp)).setPc _

theorem toNat_zextAddr (nnn : Addr12) : (zextAddr nnn).toNat = nnn.toNat :=
  BitVec.toNat_setWidth_of_le (by decide)

/-- Settles O9, by what the stack holds. -/
theorem returnPopsTheNewestAddress : Obligations.ReturnPopsTheNewestAddress := by
  unfold Obligations.ReturnPopsTheNewestAddress
  refine fun s => ⟨fun hempty => execRet_of_empty hempty, fun j hj => ?_⟩
  refine ⟨_, execRet_of_held j.isLt hj, ?_, rfl, ((Frame.refl _ _ s).setSp _ (by simp)).setPc _, .of_eq rfl⟩
  simp only [State.setPc_sp, State.setSp_sp, BitVec.toNat_sub, BitVec.toNat_ofNat]
  omega

/-- Settles O10, by the room left on the stack. -/
theorem callPushesTheReturnAddress : Obligations.CallPushesTheReturnAddress := by
  unfold Obligations.CallPushesTheReturnAddress
  refine fun nnn s => ⟨fun hfull => execCall_of_full nnn hfull, fun j hj => ?_⟩
  have hsp : s.sp.toNat < 16 := hj ▸ j.isLt
  refine ⟨_, execCall_of_free nnn hsp, ?_, fun k hk => ?_, ?_, toNat_zextAddr nnn, State.called_frame nnn hsp, .of_eq rfl⟩
  · rw [State.getElem_called_stack, if_pos hj]
    rfl
  · have hne : s.sp.toNat ≠ k.toNat := fun heq => hk (BitVec.eq_of_toNat_eq (heq.symm.trans hj))
    rw [State.getElem_called_stack, if_neg hne]
  · rw [State.toNat_called_sp, hj]

/-- R110 after R112: the 00EE undoes the jump and the change of `SP`, and leaves the pushed address in its slot. -/
theorem execRet_called {s : State} (nnn : Addr12) (hsp : s.sp.toNat < 16) :
    execRet (s.called nnn hsp) = .next ((s.setStack (s.stack.set s.sp.toNat s.pcn hsp)).setPc s.pcn) := by
  have hback : (s.called nnn hsp).sp - 1#8 = s.sp := BitVec.add_sub_cancel s.sp 1#8
  rw [execRet_of_held hsp (State.toNat_called_sp nnn hsp), State.getElem_called_stack, if_pos rfl, hback]
  rfl

/-- Settles O16: the return finds the entry the call has just pushed. -/
theorem returnAfterCallResumes : Obligations.ReturnAfterCallResumes := by
  unfold Obligations.ReturnAfterCallResumes
  intro nnn s hsp
  refine ⟨_, _, execCall_of_free nnn hsp, execRet_called nnn hsp, rfl,
    ((Frame.refl _ _ s).setStack _ (by simp)).setPc _, .of_eq rfl, fun k hk => ?_⟩
  exact Vector.getElem_set_ne hsp k.isLt hk.symm

/-! ## The jump -/

/-- Settles O12: R111 has no check. -/
theorem jumpLoadsTheTarget : Obligations.JumpLoadsTheTarget := by
  unfold Obligations.JumpLoadsTheTarget
  exact fun nnn s => ⟨_, rfl, toNat_zextAddr nnn, (Frame.refl _ _ s).setPc _, .of_eq rfl⟩

theorem toNat_encode_jp (nnn : Addr12) : (encode (.jp nnn)).toNat = 0x1000 + nnn.toNat := by
  have hn := nnn.isLt
  simp only [encode, packNNN, BitVec.toNat_append, Nat.shiftLeft_eq]
  rw [Nat.mul_comm, ← Nat.two_pow_add_eq_or_of_lt hn]
  rfl

/-- A jump to the address already in PC changes nothing. -/
theorem exec_jp_self {nnn : Addr12} {s : State} (hpc : s.pc.toNat = nnn.toNat) : exec (.jp nnn) s = .next s := by
  have htarget : zextAddr nnn = s.pc := BitVec.eq_of_toNat_eq ((toNat_zextAddr nnn).trans hpc.symm)
  change Host.Outcome.next (s.setPc (zextAddr nnn)) = .next s
  rw [htarget]
  rfl

/-- A state that a step answers itself for is the answer of any number of steps. -/
theorem runEvents_replicate_step {s : State} (h : step s = .next s) (n : Nat) :
    runEvents (List.replicate n .step) s = .next s := by
  induction n with
  | zero => rfl
  | succ n ih => simpa only [List.replicate_succ, runEvents, handle, h] using ih

/-- Settles O13: the fetched word is that of the 1NNN, so one step is a jump to PC, and so is every further one. -/
theorem jumpToItselfIsAFixedPoint : Obligations.JumpToItselfIsAFixedPoint := by
  unfold Obligations.JumpToItselfIsAFixedPoint
  intro nnn s n hrun hpc hin hword
  have hop : (encode (.jp nnn)).toNat = wordAtPc s := (toNat_encode_jp nnn).trans hword.symm
  have hstep : step s = exec (.jp nnn) s :=
    stepRunsTheDecodedInstruction s _ _ hrun (hpc ▸ hin) hop (decode_encode _)
  exact runEvents_replicate_step (hstep.trans (exec_jp_self hpc)) n

/-! ## The skips -/

/-- R95 under any condition: two bytes are skipped exactly when it holds, and nothing but PC changes. -/
theorem skipIf_spec (s : State) {c : Bool} {p : Prop} [Decidable p] (hc : c = true ↔ p) :
    ∃ t, (.next (s.skipIf c) : Result) = .next t ∧ t.pc = (if p then s.pc + 4#16 else s.pc + 2#16) ∧
      Frame [] [] s t ∧ MemKept s t := by
  refine ⟨_, rfl, ?_, (Frame.refl _ _ s).setPc _, .of_eq rfl⟩
  have htwice : s.pcn + 2#16 = s.pc + 4#16 := BitVec.add_assoc s.pc 2#16 2#16
  rw [State.skipIf_pc, htwice]
  simp only [hc, State.pcn]

/-- R75: families 3 and 4 have one row each, families 5 and 9 one at the low nibble 0 (R114 to R117). -/
theorem decode_skip_families (op : OpWord) :
    (op.family = 0x3#4 → decode op = some (.seImm op.x op.nn)) ∧
    (op.family = 0x4#4 → decode op = some (.sneImm op.x op.nn)) ∧
    (op.family = 0x5#4 → decode op = if op.n = 0x0#4 then some (.seReg op.x op.y) else none) ∧
    (op.family = 0x9#4 → decode op = if op.n = 0x0#4 then some (.sneReg op.x op.y) else none) := by
  refine ⟨?_, ?_, ?_, ?_⟩ <;> (intro hf; rw [decode, hf]; rfl)

/-- Settles O15: the encodings, and the one rule of skips at the four comparisons. -/
theorem skipsCompareRegisters : Obligations.SkipsCompareRegisters := by
  unfold Obligations.SkipsCompareRegisters
  exact ⟨decode_skip_families, fun _ _ _ s =>
    ⟨skipIf_spec s beq_iff_eq, skipIf_spec s bne_iff_ne, skipIf_spec s beq_iff_eq, skipIf_spec s bne_iff_ne⟩⟩

end Sys2Proof.Machine
end

section
/-! PROOFS. Loads, arithmetic and the random byte (spec/42_alu.md R120 to R132; O17, O18, O20, O21, O23): the one rule of an
instruction that writes one register, and the one rule of an instruction that writes a result and its flag. -/

namespace Sys2Proof.Machine

/-! ## The encoding -/

/-- R75: in family 8 the low nibble selects the instruction. -/
theorem decode_eq_decode8 {op : OpWord} (hf : op.family = 0x8#4) : decode op = decode8 op.x op.y op.n := by
  rw [decode, hf]; rfl

/-! ## One register -/

/-- Where the value, PC and everything else stand after an instruction that writes one register. -/
theorem writeV_advance_spec (s : State) (x : Nibble) (b : Byte) :
    (s.writeV x b).advance.readV x = b ∧ (s.writeV x b).advance.pc = s.pc + 2#16 ∧
      Frame [x] [] s (s.writeV x b).advance ∧ MemKept s (s.writeV x b).advance :=
  ⟨State.readV_writeV_self s x b, rfl, ((Frame.refl _ _ s).writeV x b (by simp)).advance, .of_eq rfl⟩

/-- Settles O17: the encodings, and the one-register rule at the immediate and at VY. -/
theorem loadImmediateAndCopy : Obligations.LoadImmediateAndCopy := by
  unfold Obligations.LoadImmediateAndCopy
  refine ⟨fun op => ⟨fun hf => ?_, fun hf hn => ?_⟩, fun x y nn s => ⟨?_, ?_⟩⟩
  · rw [decode, hf]; rfl
  · rw [decode_eq_decode8 hf, hn]; rfl
  · exact ⟨_, rfl, writeV_advance_spec s x nn⟩
  · exact ⟨_, rfl, writeV_advance_spec s x (s.readV y)⟩

/-- Settles O18: the one-register rule at the sum, so that VF is outside the frame unless it is VX. -/
theorem addImmediateWrapsWithoutFlag : Obligations.AddImmediateWrapsWithoutFlag := by
  unfold Obligations.AddImmediateWrapsWithoutFlag
  refine ⟨fun op hf => ?_, fun x nn s => ?_⟩
  · rw [decode, hf]; rfl
  · obtain ⟨hsum, hrest⟩ := writeV_advance_spec s x (s.readV x + nn)
    refine ⟨_, rfl, ?_, hrest⟩
    rw [hsum, BitVec.toNat_add]

/-! ## A result and its flag -/

/-- R131 in numbers: the result stands in VX unless X is 15, and VF is 1 exactly when the flag's condition holds. -/
theorem resultFlag_spec (s : State) (x : Nibble) {r : Byte} {n : Nat} {c : Bool} {p : Prop} [Decidable p]
    (hr : r.toNat = n) (hc : c = true ↔ p) :
    ∃ t, (.next (s.writeResultFlag x r c).advance : Result) = .next t ∧
      (x ≠ 0xF#4 → (t.readV x).toNat = n) ∧ (t.readV 0xF#4).toNat = (if p then 1 else 0) ∧
      t.pc = s.pc + 2#16 ∧ Frame [x, 0xF#4] [] s t ∧ MemKept s t := by
  obtain ⟨hres, hflag, hrest⟩ := writeResultFlag_advance_spec s x r c
  refine ⟨_, rfl, fun hx => ?_, ?_, hrest⟩
  · rw [hres hx, hr]
  · simp only [hflag, toNat_flagByte, hc]

/-- R127: a negative difference wraps mod 256. -/
theorem toNat_byte_sub (a b : Byte) : (a - b).toNat = (a.toNat + 256 - b.toNat) % 256 := by
  have hb := b.isLt
  rw [BitVec.toNat_sub]
  omega

/-- Settles O20: the rule of a result and its flag, at the sum and the carry. -/
theorem addSetsTheCarry : Obligations.AddSetsTheCarry := by
  unfold Obligations.AddSetsTheCarry
  refine ⟨fun op hf hn => ?_, fun x y s => ?_⟩
  · rw [decode_eq_decode8 hf, hn]; rfl
  · exact resultFlag_spec s x (BitVec.toNat_add _ _) decide_eq_true_iff

/-- Settles O21: the same rule at either difference and its NOT borrow. -/
theorem subtractSetsNotBorrow : Obligations.SubtractSetsNotBorrow := by
  unfold Obligations.SubtractSetsNotBorrow
  refine ⟨fun op hf => ⟨fun hn => ?_, fun hn => ?_⟩, fun x y s => ⟨?_, ?_⟩⟩
  · rw [decode_eq_decode8 hf, hn]; rfl
  · rw [decode_eq_decode8 hf, hn]; rfl
  · exact resultFlag_spec s x (toNat_byte_sub (s.readV x) (s.readV y)) decide_eq_true_iff
  · exact resultFlag_spec s x (toNat_byte_sub (s.readV y) (s.readV x)) decide_eq_true_iff

/-! ## The random byte -/

theorem Frame.setRng {regs : List Nibble} {parts : List Part} {s t : State} (r : Nat) (h : Frame regs parts s t)
    (hrng : .rng ∈ parts) : Frame regs parts s (t.setRng r) where
  vKept := h.vKept
  partsKept p hp := by
    have hkept := h.partsKept p hp
    cases p
    case rng => exact absurd hrng hp
    all_goals exact hkept

/-- Settles O23: the one-register rule on the state whose RNG has been advanced; the drawn byte stays free. -/
theorem randomByteIsMasked : Obligations.RandomByteIsMasked := by
  unfold Obligations.RandomByteIsMasked
  intro x nn s
  obtain ⟨hbyte, hpc, -, -⟩ := writeV_advance_spec s.drawRng x (randByte s &&& nn)
  refine ⟨_, rfl, hbyte, fun j hj => ?_, rfl, hpc,
    (((Frame.refl _ _ s).setRng _ (by simp)).writeV x _ (by simp)).advance, .of_eq rfl⟩
  rw [hbyte, BitVec.getLsbD_and, hj, Bool.and_false]

end Sys2Proof.Machine
end

section
/-! PROOFS. The index register (spec/43_index_memory.md R140; O25): the one rule of an instruction that writes `I` alone. -/

namespace Sys2Proof.Machine

theorem Frame.setI {regs : List Nibble} {parts : List Part} {s t : State} (a : Addr) (h : Frame regs parts s t)
    (hi : .i ∈ parts) : Frame regs parts s (t.setI a) where
  vKept := h.vKept
  partsKept p hp := by
    have hkept := h.partsKept p hp
    cases p
    case i => exact absurd hi hp
    all_goals exact hkept

/-- Where `I`, PC and everything else stand after an instruction that writes `I` alone. -/
theorem setI_advance_spec (s : State) (a : Addr) :
    (s.setI a).advance.i = a ∧ (s.setI a).advance.pc = s.pc + 2#16 ∧
      Frame [] [.i] s (s.setI a).advance ∧ MemKept s (s.setI a).advance :=
  ⟨rfl, rfl, ((Frame.refl _ _ s).setI a (by simp)).advance, .of_eq rfl⟩

/-- Settles O25: the one row of family A, and the rule of `I` at the zero-extended address. -/
theorem loadIndexZeroExtends : Obligations.LoadIndexZeroExtends := by
  unfold Obligations.LoadIndexZeroExtends
  refine ⟨fun op hf => ?_, fun nnn s => ?_⟩
  · rw [decode, hf]; rfl
  · obtain ⟨hindex, hrest⟩ := setI_advance_spec s (zextAddr nnn)
    refine ⟨_, rfl, ?_, hrest⟩
    rw [hindex, toNat_zextAddr]

end Sys2Proof.Machine
end

section
/-! PROOFS. Clearing and reading the display (spec/44_display.md R150, spec/60_exceptions.md R189; O34). -/

namespace Sys2Proof.Machine

/-- R74: the only word an instruction is decoded from is its encoding. -/
theorem decode_eq_some_iff {op : OpWord} {i : Instr} : decode op = some i ↔ op = encode i where
  mp h := (encode_of_decode h).symm
  mpr h := h ▸ decode_encode i

theorem Frame.setFb {regs : List Nibble} {parts : List Part} {s t : State} (fb : FrameBuffer) (h : Frame regs parts s t)
    (hfb : .fb ∈ parts) : Frame regs parts s (t.setFb fb) where
  vKept := h.vKept
  partsKept p hp := by
    have hkept := h.partsKept p hp
    cases p
    case fb => exact absurd hfb hp
    all_goals exact hkept

/-- R189: the grid is the framebuffer, and the state is as before. -/
theorem handle_readDisplay (s : State) : handle .readDisplay s = .next (s, .grid s.fb) := rfl

/-- Settles O34: 00E0 has one encoding and leaves the clear framebuffer, which ReadDisplay hands out as it is. -/
theorem clearedDisplayReadsAllOff : Obligations.ClearedDisplayReadsAllOff := by
  unfold Obligations.ClearedDisplayReadsAllOff
  refine ⟨fun op => ?_, fun s => ⟨s.fb, handle_readDisplay s, fun _ _ => rfl⟩, fun s => ?_⟩
  · exact decode_eq_some_iff.trans BitVec.toNat_inj.symm
  · exact ⟨_, _, rfl, FrameBuffer.get_clear, handle_readDisplay _, FrameBuffer.get_clear, rfl,
      ((Frame.refl _ _ s).setFb _ (by simp)).advance, .of_eq rfl⟩

end Sys2Proof.Machine
end

section
/-! PROOFS. The host's events (spec/60_exceptions.md R182 to R190, spec/70_reset_and_hazards.md R204; O40, O41, O43): what each
operation of the interface writes, and what the events that are neither Reset nor Step leave alone. -/

namespace Sys2Proof.Machine

/-- A frame may name more than changes. -/
theorem Frame.mono {regs regs' : List Nibble} {parts parts' : List Part} {s t : State} (h : Frame regs parts s t)
    (hregs : regs ⊆ regs') (hparts : parts ⊆ parts') : Frame regs' parts' s t where
  vKept k hk := h.vKept k (mt (@hregs k) hk)
  partsKept p hp := h.partsKept p (mt (@hparts p) hp)

/-! ## The timers -/

/-- R184, R185: one less, and 0 stays 0. -/
theorem toNat_countDown (t : Byte) : (countDown t).toNat = t.toNat - 1 := by
  unfold countDown
  split
  next hpos => exact BitVec.toNat_sub_of_le (BitVec.le_def.2 hpos)
  next hzero => omega

@[simp] theorem tickTimers_dt (s : State) : (tickTimers s).dt = countDown s.dt := rfl

@[simp] theorem tickTimers_st (s : State) : (tickTimers s).st = countDown s.st := rfl

theorem tickTimers_frame (s : State) : Frame [] [.dt, .st] s (tickTimers s) where
  vKept _ _ := rfl
  partsKept p hp := by
    cases p
    case dt | st => simp at hp
    all_goals rfl

/-- Settles O40, by induction on the number of ticks, from any state. -/
theorem ticksCountDownToZero : Obligations.TicksCountDownToZero := by
  unfold Obligations.TicksCountDownToZero
  intro n
  induction n with
  | zero => exact fun s => ⟨s, rfl, rfl, rfl, rfl, .refl _ _ s, .of_eq rfl⟩
  | succ n ih =>
    intro s
    obtain ⟨t, hrun, hdt, hst, hpc, hframe, hmem⟩ := ih (tickTimers s)
    refine ⟨t, hrun, ?_, ?_, hpc, (tickTimers_frame s).trans hframe, hmem⟩
    · rw [hdt, tickTimers_dt, toNat_countDown, Nat.sub_sub, Nat.add_comm]
    · rw [hst, tickTimers_st, toNat_countDown, Nat.sub_sub, Nat.add_comm]

/-! ## The key latch -/

/-- Reading a key vector after one of its keys is written. -/
theorem keyAt_set (keys : Vector Bool 16) (k j : Nibble) (p : Bool) :
    keyAt (keys.set k.toNat p k.isLt) j = if j = k then p else keyAt keys j := by
  simp only [keyAt, Vector.getElem_set, BitVec.toNat_inj, eq_comm (a := k)]

theorem keyAt_setKeyState (k j : Nibble) (p : Bool) (s : State) :
    keyAt (setKeyState k p s).key j = if j = k then p else keyAt s.key j := keyAt_set s.key k j p

theorem setKeyState_frame (k : Nibble) (p : Bool) (s : State) : Frame [] [.key] s (setKeyState k p s) where
  vKept _ _ := rfl
  partsKept q hq := by
    cases q
    case key => simp at hq
    all_goals rfl

/-- Settles O41, by the rule of the key vector. -/
theorem setKeyStateChangesOneKey : Obligations.SetKeyStateChangesOneKey := by
  unfold Obligations.SetKeyStateChangesOneKey
  intro k p s
  refine ⟨setKeyState k p s, rfl, ?_, fun j hj => ?_, rfl⟩
  · rw [keyAt_setKeyState, if_pos rfl]
  · rw [keyAt_setKeyState, if_neg hj]

/-! ## Loading, and all the host's events -/

/-- All `loadRom` can do (R204). -/
theorem loadRom_cases (bytes : List Byte) (s : State) :
    (3584 < bytes.length ∧ loadRom bytes s = (.romTooLarge, s)) ∨
    (bytes.length ≤ 3584 ∧ loadRom bytes s = (.ok, s.setMem (Memory.setBytes s.mem 0x200 bytes))) := by
  unfold loadRom
  split
  next hlarge => exact .inl ⟨hlarge, rfl⟩
  next hfits => exact .inr ⟨Nat.le_of_not_gt hfits, rfl⟩

/-- R204, R205: a load writes memory from the ROM load address up, or nothing at all. -/
theorem loadRom_snd_eq_setMem (bytes : List Byte) (s : State) :
    ∃ m, (loadRom bytes s).2 = s.setMem m ∧ ∀ a, a < 0x200 → Memory.get m a = Memory.get s.mem a := by
  rcases loadRom_cases bytes s with ⟨_, h⟩ | ⟨_, h⟩ <;> rw [h]
  · exact ⟨s.mem, rfl, fun _ _ => rfl⟩
  · exact ⟨_, rfl, fun a ha => Memory.get_setBytes_outside _ _ _ a (.inl ha)⟩

/-- Settles O43, event by event: a load writes memory, and each of the others at most the parts it names. -/
theorem hostEventsLeaveTheRunAlone : Obligations.HostEventsLeaveTheRunAlone := by
  unfold Obligations.HostEventsLeaveTheRunAlone
  refine ⟨fun _ _ => rfl, fun e s t r hreset hstep h => ?_⟩
  cases e with
  | reset rng => exact absurd rfl (hreset rng)
  | step => exact absurd rfl hstep
  | loadRom bytes =>
    cases h
    obtain ⟨m, hload, hlow⟩ := loadRom_snd_eq_setMem bytes s
    rw [hload]
    exact ⟨rfl, (Frame.refl _ _ s).setMem m, hlow⟩
  | tickTimers => cases h; exact ⟨rfl, (tickTimers_frame s).mono (by simp) (by simp), fun _ _ => rfl⟩
  | setKeyState k p => cases h; exact ⟨rfl, (setKeyState_frame k p s).mono (by simp) (by simp), fun _ _ => rfl⟩
  | readDisplay => cases h; exact ⟨rfl, .refl _ _ s, fun _ _ => rfl⟩
  | seedRng seed => cases h; exact ⟨rfl, (Frame.refl _ _ s).setRng _ (by simp), fun _ _ => rfl⟩

end Sys2Proof.Machine
end

section
/-! PROOFS. Loading a ROM (spec/70_reset_and_hazards.md R204; O42). -/

namespace Sys2Proof.Machine

/-- The event answers what the load answers, and leaves the state the load leaves. -/
theorem handle_loadRom {bytes : List Byte} {s t : State} {r : LoadResult} (h : loadRom bytes s = (r, t)) :
    handle (.loadRom bytes) s = .next (t, .loaded r) := by
  rw [handle, h]

/-- Settles O42, by the two cases of `loadRom`: one refuses in the state as it is, the other writes the block of the image. -/
theorem loadRomIsAllOrNothing : Obligations.LoadRomIsAllOrNothing := by
  unfold Obligations.LoadRomIsAllOrNothing
  intro bytes s
  rcases loadRom_cases bytes s with ⟨hlarge, hload⟩ | ⟨hfits, hload⟩
  · exact ⟨fun _ => handle_loadRom hload, fun hfits => absurd hlarge hfits.not_gt⟩
  · exact ⟨fun hlarge => absurd hfits hlarge.not_ge, fun _ =>
      ⟨_, handle_loadRom hload, Memory.get_setBytes_inside s.mem 0x200 bytes,
        Memory.get_setBytes_outside s.mem 0x200 bytes, rfl⟩⟩

end Sys2Proof.Machine
end

section
/-! PROOFS. Frames of the remaining setters, and the instructions with one plain effect (spec/41_control_flow.md R113,
spec/42_alu.md R123 to R130, spec/43_index_memory.md R141, R142, spec/45_keypad_timers.md R160 to R165; O11, O14, O19, O22, O26,
O27, O37, O38, O39). -/

namespace Sys2Proof.Machine

/-! ## Frames of the setters of one part -/

/-- An update of one part alone stays inside a frame that names the part. -/
theorem Frame.updatePart {regs : List Nibble} {parts : List Part} {s t u : State} {p : Part} (h : Frame regs parts s t)
    (hp : p ∈ parts) (hv : u.v = t.v) (hothers : ∀ q, q ≠ p → q.kept t u) : Frame regs parts s u where
  vKept k hk := by rw [← h.vKept k hk, State.readV, hv, State.readV]
  partsKept q hq := Part.kept_trans (h.partsKept q hq) (hothers q fun heq => hq (heq ▸ hp))

section Setters

variable {regs : List Nibble} {parts : List Part} {s t : State}

theorem Frame.setDt (x : Byte) (h : Frame regs parts s t) (hdt : .dt ∈ parts) : Frame regs parts s (t.setDt x) :=
  h.updatePart hdt rfl fun q hq => by
    cases q
    case dt => exact absurd rfl hq
    all_goals rfl

theorem Frame.setSt (x : Byte) (h : Frame regs parts s t) (hst : .st ∈ parts) : Frame regs parts s (t.setSt x) :=
  h.updatePart hst rfl fun q hq => by
    cases q
    case st => exact absurd rfl hq
    all_goals rfl

theorem Frame.setRun (x : RunState) (h : Frame regs parts s t) (hrun : .run ∈ parts) : Frame regs parts s (t.setRun x) :=
  h.updatePart hrun rfl fun q hq => by
    cases q
    case run => exact absurd rfl hq
    all_goals rfl

theorem Frame.setWaitx (x : Nibble) (h : Frame regs parts s t) (hwaitx : .waitx ∈ parts) :
    Frame regs parts s (t.setWaitx x) :=
  h.updatePart hwaitx rfl fun q hq => by
    cases q
    case waitx => exact absurd rfl hq
    all_goals rfl

theorem Frame.setKprev (x : Vector Bool 16) (h : Frame regs parts s t) (hkprev : .kprev ∈ parts) :
    Frame regs parts s (t.setKprev x) :=
  h.updatePart hkprev rfl fun q hq => by
    cases q
    case kprev => exact absurd rfl hq
    all_goals rfl

end Setters

/-! ## Control transfer -/

theorem execRet_of_deep {s : State} (hsp : 16 < s.sp.toNat) : execRet s = .fault .stackEntryAbsent := by
  rcases pop_cases s with ⟨hempty, _⟩ | ⟨_, hp⟩ | ⟨hin, _, _⟩
  · omega
  · rw [execRet, hp, Check.map_stuck, finish_stuck]
  · omega

theorem execCall_of_deep (nnn : Addr12) {s : State} (hsp : 16 < s.sp.toNat) : execCall nnn s = .fault .stackEntryAbsent := by
  rcases push_cases s s.pcn with ⟨hfull, _⟩ | ⟨_, hp⟩ | ⟨hfree, _⟩
  · omega
  · rw [execCall, hp, Check.map_stuck, finish_stuck]
  · omega

/-- Settles O11: above the depth the stack operation is stuck, and the instruction stops with its reason. -/
theorem stackPointerAboveTheDepthStops : Obligations.StackPointerAboveTheDepthStops := by
  unfold Obligations.StackPointerAboveTheDepthStops
  exact fun nnn s hsp => ⟨execRet_of_deep hsp, execCall_of_deep nnn hsp⟩

/-- Settles O14, by the rule of the jump with offset at the decided policy. -/
theorem jumpWithOffsetAddsV0 : Obligations.JumpWithOffsetAddsV0 := by
  unfold Obligations.JumpWithOffsetAddsV0
  exact fun nnn s => jumpOffset_spec jumpOffsetPolicy nnn s

/-! ## Logic and shifts -/

/-- Settles O19: the one-register rule at each of the three values, whose bits the library gives. -/
theorem logicWorksBitwiseWithoutFlag : Obligations.LogicWorksBitwiseWithoutFlag := by
  unfold Obligations.LogicWorksBitwiseWithoutFlag
  refine fun x y s => ⟨?_, ?_, ?_⟩
  · obtain ⟨hor, hrest⟩ := writeV_advance_spec s x (s.readV x ||| s.readV y)
    exact ⟨_, rfl, fun j => by rw [hor, BitVec.getLsbD_or], hrest⟩
  · obtain ⟨hand, hrest⟩ := writeV_advance_spec s x (s.readV x &&& s.readV y)
    exact ⟨_, rfl, fun j => by rw [hand, BitVec.getLsbD_and], hrest⟩
  · obtain ⟨hxor, hrest⟩ := writeV_advance_spec s x (s.readV x ^^^ s.readV y)
    exact ⟨_, rfl, fun j => by rw [hxor, BitVec.getLsbD_xor], hrest⟩

/-- The bit 7 of a byte as a number (R130). -/
theorem toNat_div_128 (b : Byte) : b.toNat / 128 = if b.toNat ≥ 128 then 1 else 0 := by
  have hb := b.isLt
  split <;> omega

/-- Settles O22, by the rules of the shifts at the decided policy, whose source is VX. -/
theorem shiftsMoveOnePlace : Obligations.ShiftsMoveOnePlace := by
  unfold Obligations.ShiftsMoveOnePlace
  refine fun x y s => ⟨shiftRight_spec shiftPolicy x y s, ?_⟩
  rw [← toNat_div_128]
  exact shiftLeft_spec shiftPolicy x y s

/-! ## The index register -/

/-- Settles O26: the rule of `I` at the sum of R141. -/
theorem addToIndexWrapsAt16Bits : Obligations.AddToIndexWrapsAt16Bits := by
  unfold Obligations.AddToIndexWrapsAt16Bits
  intro x s
  obtain ⟨hindex, hrest⟩ := setI_advance_spec s (s.i + zextByte (s.readV x))
  refine ⟨_, rfl, ?_, hrest⟩
  rw [hindex, BitVec.toNat_add, zextByte, BitVec.toNat_setWidth_of_le (by decide)]

/-- R142: the last glyph ends far below 65536. -/
theorem toNat_glyphAddress (d : Nibble) : (glyphAddress d).toNat = 0x050 + 5 * d.toNat := by
  have hd := d.isLt
  rw [glyphAddress, fontBase, BitVec.toNat_ofNat]
  omega

theorem toNat_lowNibble (b : Byte) : (lowNibble b).toNat = b.toNat % 16 := BitVec.toNat_setWidth 4 b

/-- Settles O27: the rule of `I` at the glyph's address. -/
theorem fontAddressOfTheLowNibble : Obligations.FontAddressOfTheLowNibble := by
  unfold Obligations.FontAddressOfTheLowNibble
  intro x s
  obtain ⟨hindex, hrest⟩ := setI_advance_spec s (glyphAddress (lowNibble (s.readV x)))
  refine ⟨_, rfl, ?_, hrest⟩
  rw [hindex, toNat_glyphAddress, toNat_lowNibble]

/-! ## Keys and timers -/

/-- Settles O37: the one rule of skips at the level of the key and at its complement. -/
theorem keySkipsTestTheLatch : Obligations.KeySkipsTestTheLatch := by
  unfold Obligations.KeySkipsTestTheLatch
  intro x k s hk
  obtain rfl : k = lowNibble (s.readV x) := BitVec.eq_of_toNat_eq (hk.trans (toNat_lowNibble _).symm)
  exact ⟨skipIf_spec s Iff.rfl, skipIf_spec s (Bool.not_eq_true' _).to_iff⟩

/-- Settles O38: four updates, none of them of a V register. -/
theorem waitForKeyEntersTheWait : Obligations.WaitForKeyEntersTheWait := by
  unfold Obligations.WaitForKeyEntersTheWait
  exact fun x s => ⟨_, rfl, rfl, rfl, rfl, rfl,
    ((((Frame.refl _ _ s).setWaitx x (by simp)).setKprev s.key (by simp)).setRun _ (by simp)).advance, .of_eq rfl⟩

/-- Settles O39: the one-register rule at DT, and one update of each timer. -/
theorem timerTransfers : Obligations.TimerTransfers := by
  unfold Obligations.TimerTransfers
  exact fun x s => ⟨⟨_, rfl, writeV_advance_spec s x s.dt⟩,
    ⟨_, rfl, rfl, rfl, ((Frame.refl _ _ s).setDt _ (by simp)).advance, .of_eq rfl⟩,
    ⟨_, rfl, rfl, rfl, ((Frame.refl _ _ s).setSt _ (by simp)).advance, .of_eq rfl⟩⟩

end Sys2Proof.Machine
end

section
/-! PROOFS. The block transfers with their checks (spec/43_index_memory.md R143 to R145, spec/20_memory.md R57, R58; O28, O29,
O30): each checked primitive said once as the answer of an instruction that ends on it. -/

namespace Sys2Proof.Machine

/-! ## Instructions that end on a checked block access at I -/

/-- R57: a block read past 0xFFF is taken as a fault on the state from before. -/
theorem finish_memRead_past {s : State} {n : Nat} (g : List Byte → State) (hn : 0 < n)
    (hpast : s.i.toNat + n - 1 > 0xFFF) :
    finish s ((memRead s.mem s.i.toNat n).map g) = .next (s.enterFault .memoryOutOfBounds) := by
  rcases memRead_cases s.mem s.i.toNat n with ⟨_, _, hr⟩ | ⟨hin, _⟩
  · rw [hr, Check.map_raised, finish_raised]
  · omega

/-- R56: a block read inside MEM, or of no byte, completes with the bytes from I up. -/
theorem finish_memRead_inside {s : State} {n : Nat} (g : List Byte → State)
    (hin : n = 0 ∨ s.i.toNat + n - 1 ≤ 0xFFF) :
    finish s ((memRead s.mem s.i.toNat n).map g) = .next (g (Memory.getBytes s.mem s.i.toNat n)) := by
  rcases memRead_cases s.mem s.i.toNat n with ⟨_, hpast, _⟩ | ⟨_, hr⟩
  · omega
  · rw [hr, Check.map_ok, finish_ok]

/-- R57, R58: a block write of some bytes faults past 0xFFF, else faults below 0x200, else writes the block. -/
theorem finish_memWrite_spec {s : State} {bytes : List Byte} (g : Memory → State) (hne : 0 < bytes.length) :
    (s.i.toNat + bytes.length - 1 > 0xFFF →
      finish s ((memWrite s.mem s.i.toNat bytes).map g) = .next (s.enterFault .memoryOutOfBounds)) ∧
    (s.i.toNat + bytes.length - 1 ≤ 0xFFF → s.i.toNat < 0x200 →
      finish s ((memWrite s.mem s.i.toNat bytes).map g) = .next (s.enterFault .writeProtected)) ∧
    (s.i.toNat + bytes.length - 1 ≤ 0xFFF → 0x200 ≤ s.i.toNat →
      finish s ((memWrite s.mem s.i.toNat bytes).map g) = .next (g (Memory.setBytes s.mem s.i.toNat bytes))) := by
  rcases memWrite_cases s.mem s.i.toNat bytes with ⟨_, hpast, hw⟩ | ⟨_, hin, hlow, hw⟩ | ⟨hin, hw⟩ <;> rw [hw]
  · exact ⟨fun _ => rfl, fun _ _ => by omega, fun _ _ => by omega⟩
  · exact ⟨fun _ => by omega, fun _ _ => rfl, fun _ _ => by omega⟩
  · exact ⟨fun _ => by omega, fun _ _ => by omega, fun _ _ => rfl⟩

/-! ## FX33 -/

/-- The three digits are bytes as they are (R143). -/
theorem toNat_bcdDigits (b : Byte) :
    (bcdDigits b).map BitVec.toNat = [b.toNat / 100, b.toNat / 10 % 10, b.toNat % 10] := by
  have hb := b.isLt
  simp only [bcdDigits, List.map_cons, List.map_nil, BitVec.toNat_ofNat, List.cons.injEq, and_true]
  omega

/-- A stored block is read back byte by byte, as numbers. -/
theorem toNat_get_setBytes (m : Memory) (a : Nat) {bytes : List Byte} {ns : List Nat} (h : bytes.map BitVec.toNat = ns)
    (j : Nat) (hj : j < ns.length) : (Memory.get (Memory.setBytes m a bytes) (a + j)).toNat = ns[j] := by
  subst h
  rw [Memory.get_setBytes_inside m a bytes j (by simpa using hj), List.getElem_map]

/-- Settles O28: the rule of a block write at the three digits. -/
theorem bcdStoresThreeDigits : Obligations.BcdStoresThreeDigits := by
  unfold Obligations.BcdStoresThreeDigits
  intro x s
  obtain ⟨hpast, hlow, hdone⟩ := finish_memWrite_spec (s := s) (bytes := bcdDigits (s.readV x))
    (fun m => (s.setMem m).advance) (Nat.zero_lt_succ 2)
  refine ⟨hpast, hlow, fun hhi hlo => ?_⟩
  have hdigit := toNat_get_setBytes s.mem s.i.toNat (toNat_bcdDigits (s.readV x))
  exact ⟨_, hdone hhi hlo, hdigit 0 (by simp), hdigit 1 (by simp), hdigit 2 (by simp), rfl,
    ((Frame.refl _ _ s).setMem _).advance, Memory.get_setBytes_outside s.mem s.i.toNat (bcdDigits (s.readV x))⟩

/-! ## FX55 and FX65 -/

/-- R144: the block V0 to VX ends at I + X. -/
theorem add_length_blockOf_sub_one (a : Nat) (v : Vector Byte 16) (x : Nibble) :
    a + (blockOf v x).length - 1 = a + x.toNat := by
  rw [length_blockOf]
  omega

/-- Settles O29: the rule of a block write at V0 to VX, and the bytes it has left. -/
theorem storeRegistersWritesTheBlock : Obligations.StoreRegistersWritesTheBlock := by
  unfold Obligations.StoreRegistersWritesTheBlock
  intro x s
  obtain ⟨hpast, hlow, hdone⟩ := finish_memWrite_spec (s := s) (bytes := blockOf s.v x)
    (fun m => ((s.setMem m).setI (indexAfterBlock loadStoreIPolicy s.i x)).advance) (by simp)
  rw [add_length_blockOf_sub_one] at hpast hlow hdone
  refine ⟨hpast, hlow, fun hhi hlo => ?_⟩
  obtain ⟨t, hexec, -, -, hstored⟩ := exec_storeRegs_stores hhi hlo
  obtain rfl := Host.Outcome.next.inj ((hdone hhi hlo).symm.trans hexec)
  refine ⟨_, hexec, hstored, rfl, ((Frame.refl _ _ s).setMem _).advance, fun a ha => ?_⟩
  exact Memory.get_setBytes_outside s.mem s.i.toNat _ a (by rwa [length_blockOf])

/-- Settles O30: R145 reads the block before it loads it, and R21 names the registers it may load. -/
theorem loadRegistersReadsTheBlock : Obligations.LoadRegistersReadsTheBlock := by
  unfold Obligations.LoadRegistersReadsTheBlock
  refine fun x s => ⟨fun hpast => finish_memRead_past _ (Nat.succ_pos _) hpast, fun hhi => ?_⟩
  obtain ⟨t, hexec, hloaded⟩ := exec_loadRegs_loads hhi
  have hkept : ∀ k, k ∉ firstRegs (x.toNat + 1) → t.readV k = s.readV k := by
    intro k hk
    by_contra hne
    have hle : k.toNat ≤ x.toNat := of_decide_eq_true (onlyTheNamedRegistersAreWritten _ s t k hexec hne)
    exact hk ((mem_firstRegs _ _).2 (Nat.lt_succ_of_le hle))
  obtain rfl := Host.Outcome.next.inj ((readBlock_eq_next loadStoreIPolicy hhi).symm.trans hexec)
  exact ⟨_, hexec, hloaded, rfl, ⟨hkept, fun p _ => by cases p <;> rfl⟩, .of_eq rfl⟩

end Sys2Proof.Machine
end

section
/-! PROOFS. Drawing (spec/44_display.md R151, R152; O35, O36): a completed DXYN in terms of the sprite it draws, and two of them in
a row. -/

namespace Sys2Proof.Machine

/-! ## The sprite of a DXYN -/

/-- The bit that the sprite of a DXYN in this state puts on each pixel (R151). -/
def State.sprite (s : State) (x y n : Nibble) : Fin 64 → Fin 32 → Bool :=
  spriteBit s.mem s.i.toNat ((s.readV x).toNat % 64) ((s.readV y).toNat % 32) n.toNat

/-- A set bit of the sprite falls on a pixel that is on (R151). -/
def State.Collides (s : State) (x y n : Nibble) : Prop :=
  ∃ px py, s.sprite x y n px py = true ∧ FrameBuffer.get s.fb px py = true

/-- The bits of the rows read from memory are the sprite's. -/
theorem rowsBits_getBytes (m : Memory) (base x0 y0 n : Nat) :
    rowsBits x0 y0 (Memory.getBytes m base n) = spriteBit m base x0 y0 n := by
  funext px py
  simp only [rowsBits, spriteBit, Memory.length_getBytes]
  by_cases hrow : (py.val + (32 - y0)) % 32 < n
  · rw [List.getD_eq_getElem _ _ (by simpa using hrow), Memory.getElem_getBytes]
  · simp [hrow]

/-- The sprite reads I, memory, VX and VY alone. -/
theorem State.sprite_congr {s t : State} {x y : Nibble} (n : Nibble) (hi : t.i = s.i) (hmem : MemKept s t)
    (hx : t.readV x = s.readV x) (hy : t.readV y = s.readV y) : t.sprite x y n = s.sprite x y n := by
  funext px py
  simp only [State.sprite, spriteBit, hi, hx, hy, hmem _]

/-! ## One DXYN -/

/-- What a completed DXYN leaves (R151): the sprite XORed onto the screen, the collision in VF, and nothing else changed. -/
structure Drawn (x y n : Nibble) (s t : State) : Prop where
  pixel : ∀ px py, FrameBuffer.get t.fb px py = (FrameBuffer.get s.fb px py ^^ s.sprite x y n px py)
  hit : s.Collides x y n → t.readV 0xF#4 = 1#8
  miss : ¬ s.Collides x y n → t.readV 0xF#4 = 0#8
  pc : t.pc = s.pc + 2#16
  frame : Frame [0xF#4] [.fb] s t
  mem : MemKept s t

/-- The rows at I, drawn at the origin that VX and VY name. -/
theorem drawSprite_drawn (x y n : Nibble) (s : State) :
    Drawn x y n s (drawSprite x y (Memory.getBytes s.mem s.i.toNat n.toNat) s) := by
  have hn : (Memory.getBytes s.mem s.i.toNat n.toNat).length < 32 := by
    rw [Memory.length_getBytes]
    exact n.isLt.trans (by decide)
  have hcolumn : spriteColumn (s.readV x) < 64 := Nat.mod_lt _ (by decide)
  have hrow : spriteRow (s.readV y) < 32 := Nat.mod_lt _ (by decide)
  obtain ⟨hpixel, hcoll⟩ := drawRows_spec hcolumn _ _ (s.fb, false) hrow hn
  rw [rowsBits_getBytes] at hpixel hcoll
  have hcollides : _ = true ↔ s.Collides x y n := hcoll.trans (by simp [State.Collides, State.sprite, spriteColumn, spriteRow])
  have hvf : (drawSprite x y (Memory.getBytes s.mem s.i.toNat n.toNat) s).readV 0xF#4 = flagByte _ :=
    State.readV_writeV_self _ vf _
  exact {
    pixel := hpixel
    hit := fun h => by rw [hvf, hcollides.2 h, flagByte, if_pos rfl]
    miss := fun h => by rw [hvf, Bool.eq_false_iff.2 (mt hcollides.1 h), flagByte, if_neg Bool.false_ne_true]
    pc := rfl
    frame := (((Frame.refl _ _ s).setFb _ (by simp)).writeV vf _ (by simp)).advance
    mem := .of_eq rfl }

/-- R151: DXYN completes where its rows are inside MEM, or are none. -/
theorem exec_drw_drawn (x y : Nibble) {n : Nibble} {s : State} (hin : n.toNat = 0 ∨ s.i.toNat + n.toNat - 1 ≤ 0xFFF) :
    ∃ t, exec (.drw x y n) s = .next t ∧ Drawn x y n s t :=
  ⟨_, finish_memRead_inside (fun rows => drawSprite x y rows s) hin, drawSprite_drawn x y n s⟩

/-- Settles O35, by what a completed DXYN leaves and by the one check it makes before. -/
theorem drawXorsTheSprite : Obligations.DrawXorsTheSprite := by
  unfold Obligations.DrawXorsTheSprite
  refine fun x y n s => ⟨fun hn hpast => finish_memRead_past _ hn hpast, fun hin => ?_⟩
  obtain ⟨t, hexec, hdrawn⟩ := exec_drw_drawn x y hin
  refine ⟨t, hexec, hdrawn.pixel, hdrawn.hit, fun hclear => hdrawn.miss ?_, hdrawn.pc, hdrawn.frame, hdrawn.mem⟩
  rintro ⟨px, py, hbit, hon⟩
  exact absurd ((hclear px py hbit).symm.trans hon) Bool.false_ne_true

/-! ## Two in a row -/

/-- A draw changes none of what its sprite is made of, unless VF is one of the coordinates (R152). -/
theorem Drawn.sprite_eq {x y n : Nibble} {s t : State} (h : Drawn x y n s t) (hx : x ≠ 0xF#4) (hy : y ≠ 0xF#4) :
    t.sprite x y n = s.sprite x y n :=
  State.sprite_congr n (h.frame.partsKept .i (by simp)) h.mem (h.frame.vKept x (by simpa using hx))
    (h.frame.vKept y (by simpa using hy))

/-- R152 (a): the same sprite XORed twice is gone. -/
theorem Drawn.fb_eq_of_twice {x y n : Nibble} {s t u : State} (hst : Drawn x y n s t) (htu : Drawn x y n t u)
    (hsprite : t.sprite x y n = s.sprite x y n) : u.fb = s.fb := by
  refine FrameBuffer.ext_get fun px py => ?_
  rw [htu.pixel, hst.pixel, hsprite, Bool.xor_assoc, Bool.xor_self, Bool.xor_false]

/-- Settles O36: the sprite is the same in both draws, and the first one has put it on the screen. -/
theorem drawTwiceRestoresTheScreen : Obligations.DrawTwiceRestoresTheScreen := by
  unfold Obligations.DrawTwiceRestoresTheScreen
  intro x y n s hx hy hin
  obtain ⟨t, hfirst, hst⟩ := exec_drw_drawn x y hin
  have hi : t.i = s.i := hst.frame.partsKept .i (by simp)
  obtain ⟨u, hsecond, htu⟩ := exec_drw_drawn x y (s := t) (hi ▸ hin)
  have hsprite := hst.sprite_eq hx hy
  refine ⟨t, u, hfirst, hsecond, hst.fb_eq_of_twice htu hsprite, ?_⟩
  rintro ⟨px, py, hbit⟩ hclear
  have hmiss : ¬ s.Collides x y n := fun ⟨qx, qy, hset, hon⟩ =>
    absurd ((hclear qx qy hset).symm.trans hon) Bool.false_ne_true
  have hlit : FrameBuffer.get t.fb px py = true := by
    rw [hst.pixel, hclear px py hbit, Bool.false_xor]
    exact hbit
  exact ⟨hst.miss hmiss, htu.hit ⟨px, py, hsprite ▸ hbit, hlit⟩⟩

end Sys2Proof.Machine
end

section
/-! PROOFS. The key wait (spec/45_keypad_timers.md R166; O7, O8): the least newly pressed key, what a poll does with it, and
polls without one. -/

namespace Sys2Proof.Machine

/-- Key `k` has gone from unpressed to pressed since the last sample: it is in the set `T` of R166. -/
def State.NewlyPressed (s : State) (k : Nibble) : Prop := keyAt s.key k = true ∧ keyAt s.kprev k = false

/-! ## The least newly pressed key -/

theorem toNat_lt_length_keyNumbers (k : Nibble) : k.toNat < keyNumbers.length := k.isLt

theorem getElem_keyNumbers (j : Nat) (h : j < keyNumbers.length) : keyNumbers[j] = BitVec.ofNat 4 j := by
  simp [keyNumbers]

theorem mem_keyNumbers (k : Nibble) : k ∈ keyNumbers :=
  List.mem_map.2 ⟨k.toNat, List.mem_range.2 k.isLt, BitVec.ofNat_toNat 4 k⟩

/-- The test of `firstNewKey` on one key. -/
theorem newKey_test_iff (s : State) (k : Nibble) : (keyAt s.key k && !keyAt s.kprev k) = true ↔ s.NewlyPressed k := by
  simp [State.NewlyPressed]

theorem firstNewKey_eq_none_iff (s : State) : firstNewKey s.key s.kprev = none ↔ ∀ k, ¬ s.NewlyPressed k := by
  simp only [firstNewKey, List.find?_eq_none, newKey_test_iff, mem_keyNumbers, true_imp_iff]

theorem newlyPressed_of_firstNewKey {s : State} {k : Nibble} (h : firstNewKey s.key s.kprev = some k) :
    s.NewlyPressed k :=
  (newKey_test_iff s k).1 (List.find?_some (p := fun k => keyAt s.key k && !keyAt s.kprev k) h)

/-- The keys are tried in ascending order, so a newly pressed key with none below it is the one found. -/
theorem firstNewKey_eq_some {s : State} {k0 : Nibble} (hk0 : s.NewlyPressed k0)
    (hleast : ∀ k : Nibble, k.toNat < k0.toNat → ¬ s.NewlyPressed k) : firstNewKey s.key s.kprev = some k0 := by
  refine List.find?_eq_some_iff_getElem.2 ⟨(newKey_test_iff s k0).2 hk0, k0.toNat,
    toNat_lt_length_keyNumbers k0, ?_, fun j hj => ?_⟩
  · rw [getElem_keyNumbers, BitVec.ofNat_toNat, BitVec.setWidth_eq]
  · have hj16 : j < 16 := hj.trans k0.isLt
    have hbelow : (BitVec.ofNat 4 j).toNat < k0.toNat := by rwa [BitVec.toNat_ofNat, Nat.mod_eq_of_lt hj16]
    rw [getElem_keyNumbers, Bool.not_eq_true']
    exact Bool.eq_false_iff.2 (mt (newKey_test_iff s _).1 (hleast _ hbelow))

/-! ## The poll -/

theorem keyWaitPoll_of_none {s : State} (h : firstNewKey s.key s.kprev = none) :
    keyWaitPoll s = s.setKprev s.key := by
  rw [keyWaitPoll, h]

theorem keyWaitPoll_of_some {s : State} {k : Nibble} (h : firstNewKey s.key s.kprev = some k) :
    keyWaitPoll s = ((s.writeV s.waitx (zextNibble k)).setRun .running).setKprev s.key := by
  rw [keyWaitPoll, h]

/-- All a poll can do (R166): without a newly pressed key it takes the sample, with one it ends the wait. -/
theorem keyWaitPoll_cases (s : State) :
    ((∀ k, ¬ s.NewlyPressed k) ∧ keyWaitPoll s = s.setKprev s.key) ∨
    (∃ k, s.NewlyPressed k ∧
      keyWaitPoll s = ((s.writeV s.waitx (zextNibble k)).setRun .running).setKprev s.key) := by
  cases hfirst : firstNewKey s.key s.kprev with
  | none => exact .inl ⟨(firstNewKey_eq_none_iff s).1 hfirst, keyWaitPoll_of_none hfirst⟩
  | some k => exact .inr ⟨k, newlyPressed_of_firstNewKey hfirst, keyWaitPoll_of_some hfirst⟩

theorem step_waiting {s : State} (h : s.run = .waitingForKey) : step s = .next (keyWaitPoll s) := by
  rw [step, h]

/-- Settles O7, by the least newly pressed key. -/
theorem waitingStepPollsTheKeys : Obligations.WaitingStepPollsTheKeys := by
  unfold Obligations.WaitingStepPollsTheKeys
  refine fun s hwait => ⟨fun hnone => ?_, fun k0 hdown hup hleast => ?_⟩
  · rw [step_waiting hwait, keyWaitPoll_of_none ((firstNewKey_eq_none_iff s).2 hnone)]
    rfl
  · rw [step_waiting hwait, keyWaitPoll_of_some (firstNewKey_eq_some ⟨hdown, hup⟩ hleast)]
    refine ⟨_, rfl, ?_, rfl, rfl, rfl, (((Frame.refl _ _ s).writeV _ _ (by simp)).setRun _ (by simp)).setKprev _ (by simp),
      .of_eq rfl⟩
    rw [State.readV_setKprev, State.readV_setRun, State.readV_writeV_self]
    exact BitVec.toNat_setWidth_of_le (by decide)

/-- A key that is down and was down at the sample is not newly pressed. -/
theorem not_newlyPressed_of_held {s : State} (h : ∀ k, keyAt s.key k = true → keyAt s.kprev k = true) (k : Nibble) :
    ¬ s.NewlyPressed k := fun ⟨hdown, hup⟩ => absurd (hup.symm.trans (h k hdown)) Bool.false_ne_true

/-- R166: a waiting step without a newly pressed key. -/
theorem step_waiting_of_held {s : State} (hwait : s.run = .waitingForKey)
    (h : ∀ k, keyAt s.key k = true → keyAt s.kprev k = true) : step s = .next (s.setKprev s.key) :=
  (waitingStepPollsTheKeys s hwait).1 (not_newlyPressed_of_held h)

/-- Settles O8: the first step takes the sample, and every further one answers the state it is in. -/
theorem keyWaitLastsUntilAPress : Obligations.KeyWaitLastsUntilAPress := by
  unfold Obligations.KeyWaitLastsUntilAPress
  intro n s hwait hheld
  have hsampled : step (s.setKprev s.key) = .next (s.setKprev s.key) := step_waiting_of_held hwait fun _ hk => hk
  simp only [List.replicate_succ, runEvents, handle, step_waiting_of_held hwait hheld]
  exact runEvents_replicate_step hsampled n

end Sys2Proof.Machine
end

section
/-! PROOFS. What a step can lead to (spec/40_step_cycle.md R90, R98, spec/20_memory.md R58, spec/60_exceptions.md R178, R179; O33,
O49, O51, O52): all that a step can answer, said once. -/

namespace Sys2Proof.Machine

/-! ## All that a step can answer -/

/-- R178, R93: a next state of an instruction is a fault taken, or the completion. -/
theorem exec_next {i : Instr} {s t : State} (h : exec i s = .next t) :
    (∃ f, t = s.enterFault f) ∨ Completed i s t := by
  have hanswer := exec_answers i s
  rw [h] at hanswer
  cases hanswer with
  | @raised f _ => exact .inl ⟨f, rfl⟩
  | completed _ ht => exact .inr ht

/-- R90: a running step takes a fault, or executes the instruction in the two bytes at PC. -/
theorem stepRunning_next {s t : State} (h : stepRunning s = .next t) :
    (∃ f, t = s.enterFault f) ∨
    ∃ (op : OpWord) (i : Instr), op.toNat = wordAtPc s ∧ decode op = some i ∧ exec i s = .next t := by
  unfold stepRunning at h
  rcases fetch_cases s with ⟨_, hf⟩ | ⟨_, hf⟩ <;> simp only [hf] at h
  · exact .inl ⟨_, (Host.Outcome.next.inj h).symm⟩
  · split at h
    next i hdec => exact .inr ⟨_, i, toNat_assemble _ _, hdec, h⟩
    next => exact .inl ⟨_, (Host.Outcome.next.inj h).symm⟩

/-- R90, R99: a step by the run state it starts from. -/
theorem step_next {s t : State} (h : step s = .next t) :
    (s.run = .halted ∧ t = s) ∨ (s.run = .waitingForKey ∧ t = keyWaitPoll s) ∨
    (s.run = .running ∧ stepRunning s = .next t) := by
  cases hrun : s.run <;> simp only [step, hrun] at h
  case halted => exact .inl ⟨rfl, (Host.Outcome.next.inj h).symm⟩
  case waitingForKey => exact .inr (.inl ⟨rfl, (Host.Outcome.next.inj h).symm⟩)
  case running => exact .inr (.inr ⟨rfl, h⟩)

/-! ## Bytes below the ROM load address -/

/-- The write bar (R58): an instruction that ends on a block write leaves the bytes below 0x200. -/
theorem get_of_finish_memWrite {s t : State} {bytes : List Byte} {g : Memory → State} (hg : ∀ m, (g m).mem = m)
    (h : finish s ((memWrite s.mem s.i.toNat bytes).map g) = .next t) {a : Nat} (ha : a < 0x200)
    (hne : 0 < bytes.length) : Memory.get t.mem a = Memory.get s.mem a := by
  rcases memWrite_cases s.mem s.i.toNat bytes with ⟨_, _, hw⟩ | ⟨_, _, _, hw⟩ | ⟨hin, hw⟩ <;> rw [hw] at h <;> cases h
  · rfl
  · rfl
  · rw [hg, Memory.get_setBytes_outside _ _ _ _ (by omega)]

/-- No instruction but FX33 and FX55 changes a byte (R93), and those obey the write bar. -/
theorem exec_get_below_romBase {i : Instr} {s t : State} (h : exec i s = .next t) {a : Nat} (ha : a < 0x200) :
    Memory.get t.mem a = Memory.get s.mem a := by
  rcases exec_next h with ⟨f, rfl⟩ | hcompleted
  · rfl
  · by_contra hne
    have hmem : t.mem ≠ s.mem := fun heq => hne (by rw [heq])
    rcases hcompleted.mem hmem with ⟨x, rfl⟩ | ⟨x, rfl⟩
    · exact hne (get_of_finish_memWrite (fun _ => rfl) h ha (by simp [bcdDigits]))
    · exact hne (get_of_finish_memWrite (fun _ => rfl) h ha (by simp))

theorem keyWaitPoll_mem (s : State) : (keyWaitPoll s).mem = s.mem := by
  rcases keyWaitPoll_cases s with ⟨_, hpoll⟩ | ⟨k, _, hpoll⟩ <;> rw [hpoll] <;> rfl

/-- Settles O33: only a running step that executes an instruction can write memory. -/
theorem bytesBelowRomBaseAreKept : Obligations.BytesBelowRomBaseAreKept := by
  unfold Obligations.BytesBelowRomBaseAreKept
  intro s t a h ha
  rcases step_next h with ⟨_, rfl⟩ | ⟨_, rfl⟩ | ⟨_, hrunning⟩
  · rfl
  · rw [keyWaitPoll_mem]
  · rcases stepRunning_next hrunning with ⟨f, rfl⟩ | ⟨op, i, _, _, hexec⟩
    · rfl
    · exact exec_get_below_romBase hexec ha

/-! ## Run states -/

/-- R98: a poll resumes exactly where a key is newly pressed, and otherwise leaves the run state alone. -/
theorem keyWaitPoll_run (s : State) :
    ((∀ k, ¬ s.NewlyPressed k) ∧ (keyWaitPoll s).run = s.run) ∨
    ((∃ k, s.NewlyPressed k) ∧ (keyWaitPoll s).run = .running) := by
  rcases keyWaitPoll_cases s with ⟨hnone, hpoll⟩ | ⟨k, hk, hpoll⟩ <;> rw [hpoll]
  · exact .inl ⟨hnone, rfl⟩
  · exact .inr ⟨⟨k, hk⟩, rfl⟩

/-- A completed instruction does not halt a running core. -/
theorem Completed.run_ne_halted {i : Instr} {s t : State} (h : Completed i s t) (hrun : s.run = .running) :
    t.run ≠ .halted := by
  rcases h.run with hkept | ⟨hwait, _⟩
  · simp [hkept, hrun]
  · simp [hwait]

/-- Settles O49: the wait never halts and neither does a completed instruction, so a fault was taken. -/
theorem faultsArePrecise : Obligations.FaultsArePrecise := by
  unfold Obligations.FaultsArePrecise
  intro s t hs h hhalted
  suffices hfault : ∃ f, t = s.enterFault f from hfault
  rcases step_next h with ⟨hrun, _⟩ | ⟨hrun, rfl⟩ | ⟨hrun, hrunning⟩
  · exact absurd hrun hs
  · rcases keyWaitPoll_run s with ⟨_, hpoll⟩ | ⟨_, hpoll⟩
    · exact absurd (hpoll.symm.trans hhalted) hs
    · cases hpoll.symm.trans hhalted
  · rcases stepRunning_next hrunning with hfault | ⟨op, i, _, _, hexec⟩
    · exact hfault
    · exact (exec_next hexec).resolve_right fun hcompleted => hcompleted.run_ne_halted hrun hhalted

/-- R98: only an FX0A takes a running core into the wait. -/
theorem waitKey_of_stepRunning_waits {s t : State} (hrun : s.run = .running) (h : stepRunning s = .next t)
    (hwait : t.run = .waitingForKey) :
    ∃ (op : OpWord) (x : Nibble), op.toNat = wordAtPc s ∧ decode op = some (.waitKey x) := by
  rcases stepRunning_next h with ⟨f, rfl⟩ | ⟨op, i, hop, hdec, hexec⟩
  · cases hwait
  · rcases exec_next hexec with ⟨f, rfl⟩ | hcompleted
    · cases hwait
    · rcases hcompleted.run with hkept | ⟨_, x, rfl⟩
      · cases hwait.symm.trans (hkept.trans hrun)
      · exact ⟨op, x, hop, hdec⟩

/-- Settles O52, by the run state the step starts from. -/
theorem runStateTransitions : Obligations.RunStateTransitions := by
  unfold Obligations.RunStateTransitions
  intro s t h
  rcases step_next h with ⟨hrun, rfl⟩ | ⟨hrun, rfl⟩ | ⟨hrun, hrunning⟩
  · simp [hrun]
  · rcases keyWaitPoll_run s with ⟨hnone, hpoll⟩ | ⟨hnew, hpoll⟩
    · have hstays : ¬ ∃ k, keyAt s.key k = true ∧ keyAt s.kprev k = false := fun ⟨k, hk⟩ => hnone k hk
      simp [hpoll, hrun, hstays]
    · have hresumes : ∃ k, keyAt s.key k = true ∧ keyAt s.kprev k = false := hnew
      simp [hpoll, hrun, hresumes]
  · refine ⟨fun _ => waitKey_of_stepRunning_waits hrun hrunning, ?_, ?_, ?_⟩ <;> simp [hrun]

/-! ## HALTED -/

theorem step_halted {s : State} (h : s.run = .halted) : step s = .next s := by
  rw [step, h]

/-- Settles O51: a Step is the identity there, and the host's events leave RUN and FAULT alone (R182). -/
theorem onlyResetLeavesHalted : Obligations.OnlyResetLeavesHalted := by
  unfold Obligations.OnlyResetLeavesHalted
  intro e s t r hhalted hreset h
  by_cases hstep : e = .step
  · subst hstep
    rw [handle, step_halted hhalted] at h
    cases h
    exact ⟨hhalted, rfl, fun _ => rfl⟩
  · obtain ⟨_, hframe, _⟩ := hostEventsLeaveTheRunAlone.2 e s t r hreset hstep h
    have hrun : t.run = s.run := hframe.partsKept .run (by simp)
    exact ⟨hrun.trans hhalted, hframe.partsKept .fault (by simp), fun heq => absurd heq hstep⟩

end Sys2Proof.Machine
end

section
/-! PROOFS. The Reset event (spec/70_reset_and_hazards.md R200; O44): the reset contents of memory, and the rest of the state. -/

namespace Sys2Proof.Machine

/-- R36: row `r` of the glyph of digit `d`, by the two transcriptions of the table. -/
theorem background_glyph (d : Fin 16) (r : Fin 5) :
    background (0x050 + 5 * d.val + r.val) = (glyphs.getD d.val []).getD r.val 0 := by
  revert d r
  decide

/-- R35: outside the font every byte is 0. -/
theorem background_outside_font {a : Nat} (h : a < 0x050 ∨ 0x0A0 ≤ a) : background a = 0#8 := by
  unfold background fontBase
  split
  next hfont =>
    have hlen : fontData.length = 80 := rfl
    exact List.getD_eq_default _ _ (by omega)
  next => rfl

/-- A key vector with no key down. -/
theorem keyAt_replicate_false (k : Nibble) : keyAt (Vector.replicate 16 false) k = false := Vector.getElem_replicate k.isLt

/-- Settles O44: the event's state is the reset state with the RNG it brings. -/
theorem resetLeavesTheResetState : Obligations.ResetLeavesTheResetState := by
  unfold Obligations.ResetLeavesTheResetState
  exact fun rng s => ⟨State.resetWith rng, rfl, fun k => Vector.getElem_replicate k.isLt, rfl, rfl, rfl,
    fun j => Vector.getElem_replicate j.isLt, rfl, rfl, rfl, rfl, rfl,
    fun k => ⟨keyAt_replicate_false k, keyAt_replicate_false k⟩, FrameBuffer.get_clear, background_glyph,
    fun _ ha => background_outside_font ha⟩

end Sys2Proof.Machine
end
